-- ==== Sys2Proof/Word.lean ====
section
/-! DEFINITION. The word types of QFH-CORE (spec/00_scope.md R11 to R13): bytes, 32-bit and 64-bit words, byte
strings. All values are unsigned; arithmetic of `BitVec w` is modulo `2^w`, as R13 asks. -/

namespace Sys2Proof

/-- A byte: 8 bits (R11). -/
abbrev Byte := BitVec 8

/-- A 32-bit word: registers, command words, the words of CRC32, MD4, MD5, SHA-1, SHA-224/256 and RIPEMD (R9, R13). -/
abbrev W32 := BitVec 32

/-- A 64-bit word: length counters, the words of SHA-384/512 and Tiger (R9, R13). -/
abbrev W64 := BitVec 64

/-- A byte string, index 0 first (R12). -/
abbrev Bytes := List Byte

end Sys2Proof
end

