-- ==== Sys2Proof/Syntax.lean ====
section
/-! DEFINITION. The commands of QFH-CORE: one constructor for each of the 17 rows of the opcode map (spec/30_encoding.md
R310). A field is the number that stands in the word: `sid` the SID field, `alg` or `enc` the SEL field (R302). A
number that names no slot, algorithm or encoding is still a command word: the command then completes with BAD_SID,
BAD_ALG or BAD_ENC (R311, R1410), so the syntax keeps it. -/

namespace Sys2Proof

/-- A command (R310). -/
inductive Instr where
  /-- NOP, OP 0x00 (R1201). -/
  | nop
  /-- S_NEW, OP 0x01 (R1203): a new session in slot `sid`. -/
  | sNew (sid : Nat)
  /-- S_ADD, OP 0x02 (R1206): enable `alg` in slot `sid`. -/
  | sAdd (alg sid : Nat)
  /-- S_REMOVE, OP 0x03 (R1208): disable `alg` in slot `sid`. -/
  | sRemove (alg sid : Nat)
  /-- S_UPDATE, OP 0x04 (R1210): feed IBUF bytes to slot `sid`. -/
  | sUpdate (sid : Nat)
  /-- S_RESULT, OP 0x05 (R1213): the digest of `alg` in slot `sid`, without finalising it. -/
  | sResult (alg sid : Nat)
  /-- S_QUERY, OP 0x06 (R1215): the bookkeeping of slot `sid`. -/
  | sQuery (sid : Nat)
  /-- D_INIT, OP 0x08 (R1220): a one-algorithm session in slot `sid`. -/
  | dInit (alg sid : Nat)
  /-- D_FINAL, OP 0x09 (R1222): the digest of `alg` in slot `sid`, finalising the slot. -/
  | dFinal (alg sid : Nat)
  /-- D_HASH, OP 0x0A (R1224): the one-shot digest of IBUF bytes. -/
  | dHash (alg : Nat)
  /-- ENCODE, OP 0x10 (R420): IBUF bytes to text. -/
  | encode (enc : Nat)
  /-- DECODE, OP 0x11 (R422): IBUF text to bytes. -/
  | decode (enc : Nat)
  /-- DETECT_ENC, OP 0x12 (R424): which encoding an IBUF text is in. -/
  | detectEnc
  /-- REG_SIZE, OP 0x18 (R1302): the digest length of `alg`. -/
  | regSize (alg : Nat)
  /-- REG_NAME, OP 0x19 (R1303): the canonical name of `alg`. -/
  | regName (alg : Nat)
  /-- REG_FROM_NAME, OP 0x1A (R1304): the algorithm an IBUF name stands for. -/
  | regFromName
  /-- DETECT_ALG, OP 0x1B (R1306): which algorithm gives an IBUF digest of an IBUF message. -/
  | detectAlg
  deriving DecidableEq, Repr

end Sys2Proof
end

