-- ==== Sys2Proof/WellFormed.lean ====
section
/-! DEFINITION. When a command is well formed: its numbers fit the fields of format C (spec/30_encoding.md R301), SEL in
8 bits and SID in 4. Exactly the well-formed commands have a command word. -/

namespace Sys2Proof

/-- The SEL field of format C is 8 bits wide, bits 15:8 (R301). -/
def selFits (n : Nat) : Bool := decide (n < 256)

/-- The SID field of format C is 4 bits wide, bits 19:16 (R301). -/
def sidFits (n : Nat) : Bool := decide (n < 16)

/-- Every number of the command fits its field (R301, R310). -/
def Instr.wf : Instr → Bool
  | .nop => true
  | .sNew sid => sidFits sid
  | .sAdd alg sid => selFits alg && sidFits sid
  | .sRemove alg sid => selFits alg && sidFits sid
  | .sUpdate sid => sidFits sid
  | .sResult alg sid => selFits alg && sidFits sid
  | .sQuery sid => sidFits sid
  | .dInit alg sid => selFits alg && sidFits sid
  | .dFinal alg sid => selFits alg && sidFits sid
  | .dHash alg => selFits alg
  | .encode enc => selFits enc
  | .decode enc => selFits enc
  | .detectEnc => true
  | .regSize alg => selFits alg
  | .regName alg => selFits alg
  | .regFromName => true
  | .detectAlg => true

end Sys2Proof
end

