-- ==== Sys2Proof/Decode.lean ====
section
/-! DEFINITION. The command decoder and encoder (spec/30_encoding.md R300 to R302, R310 to R317). Decoding makes the first
two checks of R1410, which need nothing but the word: the opcode is one of the 17 (else BAD_OPCODE), and RSV and the
must-be-zero SEL and SID are zero (else BAD_FIELD). The range checks of SID and SEL need NSESS, NALG and NENC and
belong to the commands' meanings. -/

namespace Sys2Proof

/-- The 17 defined opcodes (R310). -/
inductive Op where
  | nop | sNew | sAdd | sRemove | sUpdate | sResult | sQuery | dInit | dFinal | dHash
  | encode | decode | detectEnc | regSize | regName | regFromName | detectAlg
  deriving DecidableEq, Repr

/-- Why a word is no command: the codes of steps 1 and 2 of R1410. -/
inductive DecodeError where
  /-- The opcode is reserved (R312). -/
  | badOpcode
  /-- RSV, or a SEL or SID that must be zero, is not zero (R313). -/
  | badField
  deriving DecidableEq, Repr

/-- Column OP of R310; the reserved opcodes of R312 have none. -/
def opOfNat : Nat → Option Op
  | 0x00 => some .nop
  | 0x01 => some .sNew
  | 0x02 => some .sAdd
  | 0x03 => some .sRemove
  | 0x04 => some .sUpdate
  | 0x05 => some .sResult
  | 0x06 => some .sQuery
  | 0x08 => some .dInit
  | 0x09 => some .dFinal
  | 0x0A => some .dHash
  | 0x10 => some .encode
  | 0x11 => some .decode
  | 0x12 => some .detectEnc
  | 0x18 => some .regSize
  | 0x19 => some .regName
  | 0x1A => some .regFromName
  | 0x1B => some .detectAlg
  | _ => none

/-- Column SEL of R310: the selector names an algorithm or an encoding (else it must be zero). -/
def opUsesSel : Op → Bool
  | .nop | .sNew | .sUpdate | .sQuery | .detectEnc | .regFromName | .detectAlg => false
  | .sAdd | .sRemove | .sResult | .dInit | .dFinal | .dHash | .encode | .decode | .regSize | .regName => true

/-- Column SID of R310: the field names a slot (else it must be zero). -/
def opUsesSid : Op → Bool
  | .sNew | .sAdd | .sRemove | .sUpdate | .sResult | .sQuery | .dInit | .dFinal => true
  | .nop | .dHash | .encode | .decode | .detectEnc | .regSize | .regName | .regFromName | .detectAlg => false

/-- The command of an opcode, a SEL and a SID (R310). -/
def instrOf (sel sid : Nat) : Op → Instr
  | .nop => .nop
  | .sNew => .sNew sid
  | .sAdd => .sAdd sel sid
  | .sRemove => .sRemove sel sid
  | .sUpdate => .sUpdate sid
  | .sResult => .sResult sel sid
  | .sQuery => .sQuery sid
  | .dInit => .dInit sel sid
  | .dFinal => .dFinal sel sid
  | .dHash => .dHash sel
  | .encode => .encode sel
  | .decode => .decode sel
  | .detectEnc => .detectEnc
  | .regSize => .regSize sel
  | .regName => .regName sel
  | .regFromName => .regFromName
  | .detectAlg => .detectAlg

/-- OP, bits 7:0 (R301, R302). -/
def opField (w : W32) : Nat := (w.extractLsb' 0 8).toNat

/-- SEL, bits 15:8 (R301, R302). -/
def selField (w : W32) : Nat := (w.extractLsb' 8 8).toNat

/-- SID, bits 19:16 (R301, R302). -/
def sidField (w : W32) : Nat := (w.extractLsb' 16 4).toNat

/-- RSV, bits 31:20 (R301, R302). -/
def rsvField (w : W32) : Nat := (w.extractLsb' 20 12).toNat

/-- The fields of an opcode that R310 and R301 require to be zero are zero. -/
def fieldsOk (op : Op) (w : W32) : Bool :=
  rsvField w == 0 && (opUsesSel op || selField w == 0) && (opUsesSid op || sidField w == 0)

/-- Decode one command word: steps 1 and 2 of R1410, in that order. Total: every word is a command or is rejected by
the name of its code. -/
def decode (w : W32) : Except DecodeError Instr :=
  match opOfNat (opField w) with
  | none => .error .badOpcode
  | some op => if fieldsOk op w then .ok (instrOf (selField w) (sidField w) op) else .error .badField

/-- The opcode row of a command (R310). -/
def opOf : Instr → Op
  | .nop => .nop
  | .sNew _ => .sNew
  | .sAdd _ _ => .sAdd
  | .sRemove _ _ => .sRemove
  | .sUpdate _ => .sUpdate
  | .sResult _ _ => .sResult
  | .sQuery _ => .sQuery
  | .dInit _ _ => .dInit
  | .dFinal _ _ => .dFinal
  | .dHash _ => .dHash
  | .encode _ => .encode
  | .decode _ => .decode
  | .detectEnc => .detectEnc
  | .regSize _ => .regSize
  | .regName _ => .regName
  | .regFromName => .regFromName
  | .detectAlg => .detectAlg

/-- The value of OP (R310). -/
def opNat : Op → Nat
  | .nop => 0x00
  | .sNew => 0x01
  | .sAdd => 0x02
  | .sRemove => 0x03
  | .sUpdate => 0x04
  | .sResult => 0x05
  | .sQuery => 0x06
  | .dInit => 0x08
  | .dFinal => 0x09
  | .dHash => 0x0A
  | .encode => 0x10
  | .decode => 0x11
  | .detectEnc => 0x12
  | .regSize => 0x18
  | .regName => 0x19
  | .regFromName => 0x1A
  | .detectAlg => 0x1B

/-- The mask of a row of the opcode map (R311). -/
def rowMask (op : Op) : W32 :=
  match opUsesSel op, opUsesSid op with
  | true, true => 0xFFF000FF
  | false, true => 0xFFF0FFFF
  | true, false => 0xFFFF00FF
  | false, false => 0xFFFFFFFF

/-- The match of a row of the opcode map: OP (R311). -/
def rowMatch (op : Op) : W32 := BitVec.ofNat 32 (opNat op)

/-- The SEL number of a command, 0 where R310 says "0". -/
def selOf : Instr → Nat
  | .sAdd alg _ | .sRemove alg _ | .sResult alg _ | .dInit alg _ | .dFinal alg _ => alg
  | .dHash alg | .regSize alg | .regName alg => alg
  | .encode enc | .decode enc => enc
  | .nop | .sNew _ | .sUpdate _ | .sQuery _ | .detectEnc | .regFromName | .detectAlg => 0

/-- The SID number of a command, 0 where R310 says "0". -/
def sidOf : Instr → Nat
  | .sNew sid | .sUpdate sid | .sQuery sid => sid
  | .sAdd _ sid | .sRemove _ sid | .sResult _ sid | .dInit _ sid | .dFinal _ sid => sid
  | .nop | .dHash _ | .encode _ | .decode _ | .detectEnc | .regSize _ | .regName _ | .regFromName | .detectAlg => 0

/-- The command word: `(sid << 16) | (sel << 8) | op`, RSV zero (R301, R317). -/
def encode (i : Instr) : W32 :=
  (BitVec.ofNat 32 (sidOf i) <<< 16) ||| (BitVec.ofNat 32 (selOf i) <<< 8) ||| BitVec.ofNat 32 (opNat (opOf i))

/-- The command the decoder reads from an instruction of `nbits` bits whose bits are `w`: every bit from `nbits` up is 0. A
command is one 32-bit word (R300). -/
def decodeTableWord (nbits w : Nat) : Option Instr :=
  match decode (BitVec.ofNat 32 (w % 2 ^ nbits)) with
  | .ok i => some i
  | .error _ => none

end Sys2Proof
end

