-- ==== Sys2Proof/Config.lean ====
section
/-! DEFINITION. What an implementation of QFH-CORE fixes (spec/00_scope.md R9), the algorithm-independent constants of the
composite engines, and the free values: every quantity the spec calls unspecified or leaves to the platform is an
opaque constant here, so that no proof can rest on what it is. -/

namespace Sys2Proof.Config

/-- The three sizes an implementation chooses (R9, decision D4). They are readable by the host in CAPS and BUFSZ
(R103, R104), so the model keeps them in the state, where no step changes them. -/
structure Params where
  /-- NSESS, the number of session slots. -/
  nsess : Nat
  /-- IBUF_SIZE, the bytes of the input buffer. -/
  ibufSize : Nat
  /-- OBUF_SIZE, the bytes of the output buffer. -/
  obufSize : Nat
  deriving DecidableEq, Repr

/-- The default parameters of R9: NSESS = 4, IBUF_SIZE = 4096, OBUF_SIZE = 8192. -/
def defaultParams : Params := { nsess := 4, ibufSize := 4096, obufSize := 8192 }

/-- The parameter ranges of R9 (decision D4). -/
abbrev Params.wf (p : Params) : Prop :=
  1 ≤ p.nsess ∧ p.nsess ≤ 16 ∧ 64 ≤ p.ibufSize ∧ p.ibufSize ≤ 4096 ∧
    2 * p.ibufSize ≤ p.obufSize ∧ p.obufSize ≤ 8192

/-- NALG, the number of algorithms (R9, R130). -/
def nalg : Nat := 17

/-- NENC, the number of text encodings (R9, R131). -/
def nenc : Nat := 6

/-- CHUNK, the ED2K and AICH chunk size in bytes (R9). -/
def chunkBytes : Nat := 9728000

/-- PART, the AICH part size in bytes (R9). -/
def partBytes : Nat := 184320

/-- LEAF, the TTH leaf size in bytes (R9). -/
def leafBytes : Nat := 1024

/-- NLEVEL, the levels of a Merkle stack (R9, R1110). -/
def nlevel : Nat := 56

/-- A free byte: what a buffer byte that holds no defined value reads as (R114, R115), for the `draw`-th drawing and
the window offset read. No body: any value. -/
opaque freeByte (draw offset : Nat) : Byte

/-- A free word: what a host read of RES0..RES3, OLEN, STATUS.CODE or OBUF returns while STATUS.BUSY = 1 (R1511), for the
`draw`-th drawing. No body: any value. -/
opaque freeWord (draw : Nat) : W32

/-- The latency of the command accepted at the `draw`-th drawing: how many steps of the host pass before it completes
(R1513, D18 OPEN). Finite, possibly zero. No body: any number. -/
opaque latency (draw : Nat) : Nat

/-- Which 16 KiB block of the host's address map the platform gives the window (R200, D3 OPEN). No body. -/
opaque qfhBlock : Nat

/-- QFH_BASE (R200): 16 KiB aligned, as D3 requires. -/
def qfhBase : Nat := 0x4000 * qfhBlock

/-- QFH_IRQ (R1420, D17 OPEN): the interrupt number of the platform to which the IRQ line is wired. No body. -/
opaque qfhIrq : Nat

end Sys2Proof.Config
end

