-- ==== Sys2Proof/Machine/State.lean ====
section
/-! DEFINITION. The state of QFH-CORE as plain data (spec/10_state.md): the host-visible registers, the two buffers, the
session slots with one context per enabled algorithm, the hidden registers PCMD and SCR; then the fields the model
adds, which hold the environment: the accesses the host has not issued yet, the value its last read returned, the time a
running command still takes, and the count of free values drawn. -/

namespace Sys2Proof.Machine

/-! ## Contexts (R132, R501, R1101, R1110, R1120, R1140) -/

/-- An MD context (R501): the chaining state `h` (`σ` is the chaining state of the algorithm, R133), the bytes of the
block being filled, and the 64-bit count of bytes absorbed. -/
structure MdCtx (σ : Type) where
  h : σ
  buf : Bytes
  n : W64
  deriving DecidableEq, Repr

/-- A Merkle accumulator (R1110): the counter N and the stack STK[0..55]; level `i` holds a hash while bit `i` of the counter
is 1 and no value otherwise (R134). -/
structure Merkle where
  count : W64
  stk : List (Option Bytes)
  deriving DecidableEq, Repr

/-- The ED2K context (R1101): IN, OUT, CB, NCH. -/
structure Ed2kCtx where
  inner : MdCtx (List W32)
  outer : MdCtx (List W32)
  cb : Nat
  nch : W64
  deriving DecidableEq, Repr

/-- The TTH context (R1120): LCTX, LB and the accumulator (NLEAF, STK). -/
structure TthCtx where
  lctx : MdCtx (List W64)
  lb : Nat
  leaves : Merkle
  deriving DecidableEq, Repr

/-- The AICH context (R1140): PCTX, PB, CPOS, the accumulators (NPART, PSTK) and (NCHK, CSTK), and ASIZE. -/
structure AichCtx where
  pctx : MdCtx (List W32)
  pb : Nat
  cpos : Nat
  parts : Merkle
  chunks : Merkle
  asize : W64
  deriving DecidableEq, Repr

/-- A context: the Digest State of one algorithm (R132). The MD kind is split by the type of its chaining state (R133): 32-bit
words, 64-bit words, or Whirlpool's 8×8 byte matrix in row-major order (R901). -/
inductive Ctx where
  /-- CRC (R520): the running remainder. -/
  | crc (r : W32)
  /-- MD with 32-bit chaining words: MD4, MD5, SHA-1, SHA-224/256, RIPEMD. -/
  | md32 (c : MdCtx (List W32))
  /-- MD with 64-bit chaining words: SHA-384/512, Tiger. -/
  | md64 (c : MdCtx (List W64))
  /-- MD with a byte matrix: Whirlpool. -/
  | mat (c : MdCtx Bytes)
  /-- ED2K. -/
  | ed2k (c : Ed2kCtx)
  /-- TTH. -/
  | tth (c : TthCtx)
  /-- AICH. -/
  | aich (c : AichCtx)
  deriving DecidableEq, Repr

/-- A session slot (R116). `ctx` has one entry for each algorithm 0..16; an entry is present exactly when its EN bit is 1. -/
structure Slot where
  en : BitVec 17
  dirty : Bool
  final : Bool
  hasSize : Bool
  size : W64
  total : W64
  ctx : List (Option Ctx)
  deriving DecidableEq, Repr

/-- A slot after reset: an empty session (R1500, R1503). -/
def emptySlot : Slot :=
  { en := 0, dirty := false, final := false, hasSize := false, size := 0, total := 0, ctx := List.replicate 17 none }

/-! ## Status -/

/-- The completion codes (R1401). The reserved codes have no constructor: they are never produced. -/
inductive Code where
  | ok | notFound | ignored
  | badOpcode | badField | badSid | badAlg | badEnc | badRange
  | notEnabled | noSize | sizeMismatch | finalized | lengthOverflow
  | parse
  deriving DecidableEq, Repr

/-- STATUS (R106), by its fields; the reserved bits read as 0 and are not stored. -/
structure Status where
  busy : Bool
  done : Bool
  err : Bool
  ovr : Bool
  aerr : Bool
  code : Code
  deriving DecidableEq, Repr

/-! ## Memory and the host -/

/-- A byte memory: the cells that hold a defined value, addresses strictly rising. An unlisted cell holds none (R114, R115). -/
abbrev Memory := List Host.Cell

/-- The width of a host access (R203). -/
inductive Width where
  | w8 | w16 | w32
  deriving DecidableEq, Repr

/-- What the host does in one step: the inputs of the machine (R100, R1500). `off` is an offset in the 16 KiB window (R200). -/
inductive HostEvent where
  /-- The host issues nothing in this step. -/
  | idle
  /-- A read of the given width. -/
  | read (off : BitVec 14) (w : Width)
  /-- A write; a write of 8 or 16 bits uses the low bits of `v`. -/
  | write (off : BitVec 14) (w : Width) (v : W32)
  /-- The pseudo-instruction WAIT: read STATUS again and again until BUSY reads 0 (R316). -/
  | waitIdle
  /-- The hardware reset (R1500). -/
  | hardReset
  deriving DecidableEq, Repr

/-! ## The state -/

/-- The state of QFH-CORE. ID, CAPS and BUFSZ are functions of `params` (R102 to R104); CMD and CTRL hold nothing (R105, R112); IRQ
is a function of STATUS and IRQEN (R1420); the registry is constant (R1300). -/
structure State where
  /-- NSESS, IBUF_SIZE, OBUF_SIZE (R9): no step changes them (notes/assumptions/4.md). -/
  params : Config.Params
  /-- STATUS (R106). -/
  status : Status
  /-- ARG0..ARG3 (R108). -/
  arg0 : W32
  arg1 : W32
  arg2 : W32
  arg3 : W32
  /-- RES0..RES3 (R109). -/
  res0 : W32
  res1 : W32
  res2 : W32
  res3 : W32
  /-- OLEN[15:0] (R110). -/
  olen : BitVec 16
  /-- IRQEN.DONE_IE and IRQEN.ERR_IE (R111). -/
  doneIe : Bool
  errIe : Bool
  /-- PCMD, the latched command word (R140). -/
  pcmd : W32
  /-- IBUF and OBUF, by byte index (R114). -/
  ibuf : Memory
  obuf : Memory
  /-- S[0] .. S[NSESS-1] (R116). -/
  slots : List Slot
  /-- SCR, the scratch context (R141). -/
  scr : Option Ctx
  /-- The model's own: the steps that pass before the running command completes (R1513; notes/assumptions/3.md). -/
  wait : Nat
  /-- The model's own: how many drawings of free values have been made (notes/assumptions/2.md). -/
  draws : Nat
  /-- The model's own: what the host does next, the first event first (R211; notes/assumptions/5.md). -/
  hostQueue : List HostEvent
  /-- The model's own: the value the last host read returned (notes/assumptions/5.md). -/
  rdata : W32
  deriving DecidableEq, Repr

/-- Why a step stops with a fault. QFH-CORE has no such step: an error ends its command with a code (R1430), and an access
the window does not admit sets AERR (R205). No constructor, so nothing raises it. -/
inductive Fault where
  deriving DecidableEq, Repr

/-- Why a step has no meaning. -/
inductive Refusal where
  /-- The instruction is not modelled yet; only an arm of `exec` without a meaning would raise it, and there is none. Safe. -/
  | notModelled (mnemonic : String)
  deriving DecidableEq, Repr

/-- STATUS after reset (R106, R1500): 0x00000000. -/
def resetStatus : Status :=
  { busy := false, done := false, err := false, ovr := false, aerr := false, code := .ok }

/-- The state after hardware reset for any parameters (R1500). PCMD has no reset value in the spec and is 0 here (DESIGN CHOICE,
notes/assumptions/1.md); so are the model's own fields (DESIGN CHOICE, notes/assumptions/2.md, 3.md, 5.md). -/
def resetWith (p : Config.Params) : State :=
  { params := p, status := resetStatus
    arg0 := 0, arg1 := 0, arg2 := 0, arg3 := 0
    res0 := 0, res1 := 0, res2 := 0, res3 := 0
    olen := 0, doneIe := false, errIe := false
    pcmd := 0, ibuf := [], obuf := []
    slots := List.replicate p.nsess emptySlot, scr := none
    wait := 0, draws := 0, hostQueue := [], rdata := 0 }

/-- The machine right after reset, with the default parameters of R9 (R1500). -/
def State.reset : State := resetWith Config.defaultParams

end Sys2Proof.Machine
end

