-- ==== Sys2Proof/Machine/Memory.lean ====
section
/-! DEFINITION. The byte memories IBUF and OBUF (spec/10_state.md R114, R115; spec/20_memory.md). A memory lists the cells that
hold a defined value, addresses strictly rising. A cell that is not listed holds no defined value, and reading it gives a free
byte: no listed value can equal that, so the strictly rising list is the one form of a memory. -/

namespace Sys2Proof.Machine

/-- Every address of the list is above `lo`, and the addresses strictly rise. -/
def risesAbove : Nat → Memory → Bool
  | _, [] => true
  | lo, (a, _) :: rest => decide (lo < a) && risesAbove a rest

/-- The canonical form: addresses strictly rising. -/
def Memory.wf : Memory → Bool
  | [] => true
  | (a, _) :: rest => risesAbove a rest

/-- The value a cell holds; none where nothing defined stands in it. -/
def memGet : Memory → Nat → Option Byte
  | [], _ => none
  | (b, v) :: rest, a => if a = b then some v else memGet rest a

/-- Store one byte, keeping the addresses rising. -/
def memSet : Memory → Nat → Byte → Memory
  | [], a, v => [(a, v)]
  | (b, u) :: rest, a, v =>
    if a < b then (a, v) :: (b, u) :: rest
    else if a = b then (a, v) :: rest
    else (b, u) :: memSet rest a v

/-- Store a byte string at addresses `a`, `a + 1`, ... -/
def memStore (m : Memory) (a : Nat) : Bytes → Memory
  | [] => m
  | v :: vs => memStore (memSet m a v) (a + 1) vs

/-- The memory that holds exactly the bytes `bs` at `a`, `a + 1`, ..., and no other defined byte. -/
def memOf (a : Nat) : Bytes → Memory
  | [] => []
  | v :: vs => (a, v) :: memOf (a + 1) vs

/-- The window offset of IBUF[0] (R201). -/
def ibufBase : Nat := 0x1000

/-- The window offset of OBUF[0] (R201). -/
def obufBase : Nat := 0x2000

/-- IBUF[k] (R114): the byte it holds, or a free byte where nothing has written it since reset. -/
def ibufByte (s : State) (draw k : Nat) : Byte := (memGet s.ibuf k).getD (Config.freeByte draw (ibufBase + k))

/-- OBUF[k] (R114, R115): the byte of the last command's output, or a free byte at and beyond OLEN. -/
def obufByte (s : State) (draw k : Nat) : Byte := (memGet s.obuf k).getD (Config.freeByte draw (obufBase + k))

end Sys2Proof.Machine
end

