-- ==== Sys2Proof/Machine/Operands.lean ====
section
/-! DEFINITION. The operands of the commands: identifiers (spec/10_state.md R130, R131), argument-register operands and their
range check (spec/30_encoding.md R302, R303), and reading an IBUF operand (spec/00_scope.md R15, spec/20_memory.md R209). -/

namespace Sys2Proof.Machine

/-! ## Identifiers -/

/-- The 17 algorithms (R130). -/
inductive Alg where
  | crc32 | md4 | md5 | sha1 | sha224 | sha256 | sha384 | sha512
  | ripemd128 | ripemd160 | ripemd256 | ripemd320 | whirlpool | tiger | ed2k | tth | aich
  deriving DecidableEq, Repr

/-- All algorithms in identifier order, the enumeration order of detection (R130, R1305). -/
def allAlgs : List Alg :=
  [.crc32, .md4, .md5, .sha1, .sha224, .sha256, .sha384, .sha512,
   .ripemd128, .ripemd160, .ripemd256, .ripemd320, .whirlpool, .tiger, .ed2k, .tth, .aich]

/-- The identifier of an algorithm (R130). -/
def algId : Alg → Nat
  | .crc32 => 0 | .md4 => 1 | .md5 => 2 | .sha1 => 3 | .sha224 => 4 | .sha256 => 5 | .sha384 => 6 | .sha512 => 7
  | .ripemd128 => 8 | .ripemd160 => 9 | .ripemd256 => 10 | .ripemd320 => 11 | .whirlpool => 12 | .tiger => 13
  | .ed2k => 14 | .tth => 15 | .aich => 16

/-- The algorithm of an identifier; none for 17 and above, which is BAD_ALG (R302, R1410 step 4). -/
def algOf : Nat → Option Alg
  | 0 => some .crc32 | 1 => some .md4 | 2 => some .md5 | 3 => some .sha1 | 4 => some .sha224 | 5 => some .sha256
  | 6 => some .sha384 | 7 => some .sha512 | 8 => some .ripemd128 | 9 => some .ripemd160 | 10 => some .ripemd256
  | 11 => some .ripemd320 | 12 => some .whirlpool | 13 => some .tiger | 14 => some .ed2k | 15 => some .tth
  | 16 => some .aich | _ => none

/-- The digest length in bytes (R130). -/
def digestLen : Alg → Nat
  | .crc32 => 4 | .md4 => 16 | .md5 => 16 | .sha1 => 20 | .sha224 => 28 | .sha256 => 32 | .sha384 => 48 | .sha512 => 64
  | .ripemd128 => 16 | .ripemd160 => 20 | .ripemd256 => 32 | .ripemd320 => 40 | .whirlpool => 64 | .tiger => 24
  | .ed2k => 16 | .tth => 24 | .aich => 20

/-- The canonical name, in ASCII with no terminator (R130, R1300). -/
def algName : Alg → Bytes
  | .crc32 => [0x43, 0x52, 0x43, 0x33, 0x32]
  | .md4 => [0x4D, 0x44, 0x34]
  | .md5 => [0x4D, 0x44, 0x35]
  | .sha1 => [0x53, 0x48, 0x41, 0x31]
  | .sha224 => [0x53, 0x48, 0x41, 0x32, 0x32, 0x34]
  | .sha256 => [0x53, 0x48, 0x41, 0x32, 0x35, 0x36]
  | .sha384 => [0x53, 0x48, 0x41, 0x33, 0x38, 0x34]
  | .sha512 => [0x53, 0x48, 0x41, 0x35, 0x31, 0x32]
  | .ripemd128 => [0x52, 0x49, 0x50, 0x45, 0x4D, 0x44, 0x31, 0x32, 0x38]
  | .ripemd160 => [0x52, 0x49, 0x50, 0x45, 0x4D, 0x44, 0x31, 0x36, 0x30]
  | .ripemd256 => [0x52, 0x49, 0x50, 0x45, 0x4D, 0x44, 0x32, 0x35, 0x36]
  | .ripemd320 => [0x52, 0x49, 0x50, 0x45, 0x4D, 0x44, 0x33, 0x32, 0x30]
  | .whirlpool => [0x57, 0x48, 0x49, 0x52, 0x4C, 0x50, 0x4F, 0x4F, 0x4C]
  | .tiger => [0x54, 0x49, 0x47, 0x45, 0x52]
  | .ed2k => [0x45, 0x44, 0x32, 0x4B]
  | .tth => [0x54, 0x54, 0x48]
  | .aich => [0x41, 0x49, 0x43, 0x48]

/-- The six text encodings (R131). -/
inductive Enc where
  | base16 | base16l | base32 | base32hex | base64 | base64url
  deriving DecidableEq, Repr

/-- All encodings in identifier order, the order of detection (R131, R415). -/
def allEncs : List Enc := [.base16, .base16l, .base32, .base32hex, .base64, .base64url]

/-- The identifier of an encoding (R131). -/
def encId : Enc → Nat
  | .base16 => 0 | .base16l => 1 | .base32 => 2 | .base32hex => 3 | .base64 => 4 | .base64url => 5

/-- The encoding of an identifier; none for 6 and above, which is BAD_ENC (R302, R1410 step 4). -/
def encOf : Nat → Option Enc
  | 0 => some .base16 | 1 => some .base16l | 2 => some .base32 | 3 => some .base32hex | 4 => some .base64
  | 5 => some .base64url | _ => none

/-! ## Argument-register operands (R303) -/

/-- SID names a slot: sid < NSESS (R302, R1410 step 3). -/
def sidOk (s : State) (sid : Nat) : Bool := decide (sid < s.params.nsess)

/-- The IBUF operand (off, len) lies in IBUF: off + len ≤ IBUF_SIZE, without wrap-around (R303, R1410 step 6). -/
def operandOk (s : State) (off len : W32) : Bool := decide (off.toNat + len.toNat ≤ s.params.ibufSize)

/-- `mask` of S_NEW, bits [16:0] of ARG0 (R303). -/
def argMask (s : State) : BitVec 17 := s.arg0.extractLsb' 0 17

/-- mask[31:17] = 0 (R303, R1410 step 5). -/
def maskOk (s : State) : Bool := s.arg0 >>> 17 == 0

/-- flags[31:1] = 0 (R303, R1410 step 5). -/
def flagsOk (s : State) : Bool := s.arg1 >>> 1 == 0

/-- SIZE_VALID, bit 0 of `flags` (R303). -/
def sizeValid (s : State) : Bool := s.arg1.getLsbD 0

/-- `size`, ARG3 : ARG2 (R303). -/
def argSize (s : State) : W64 := s.arg3 ++ s.arg2

/-- `MemRead(IBUF + off, len)` (R15, R209) at the `draw`-th drawing of free values. -/
def operandBytes (s : State) (draw : Nat) (off len : W32) : Bytes :=
  (List.range len.toNat).map fun i => ibufByte s draw (off.toNat + i)

end Sys2Proof.Machine
end

