-- ==== Sys2Proof/Machine/Words.lean ====
section
/-! DEFINITION. Word operators and byte orders (spec/00_scope.md R13, R14). -/

namespace Sys2Proof.Machine

/-- `rotl_w(x, n)` for 0 < n < w (R13). -/
def rotl {w : Nat} (x : BitVec w) (n : Nat) : BitVec w := (x <<< n) ||| (x >>> (w - n))

/-- `rotr_w(x, n)` for 0 < n < w (R13). -/
def rotr {w : Nat} (x : BitVec w) (n : Nat) : BitVec w := (x >>> n) ||| (x <<< (w - n))

/-- The integer of a little-endian byte string. -/
def leNat : Bytes → Nat
  | [] => 0
  | b :: bs => b.toNat + 256 * leNat bs

/-- The integer of a big-endian byte string. -/
def beNat (bs : Bytes) : Nat := bs.foldl (fun acc b => acc * 256 + b.toNat) 0

/-- `to_leN(v, k)`: k bytes, least significant first (R14). -/
def toLeN (v k : Nat) : Bytes := (List.range k).map fun i => BitVec.ofNat 8 (v >>> (8 * i))

/-- `to_beN(v, k)`: k bytes, most significant first (R14). -/
def toBeN (v k : Nat) : Bytes := (toLeN v k).reverse

/-- Bytes `s[k*i .. k*i + k)` of a string (R12). -/
def wordBytes (k : Nat) (s : Bytes) (i : Nat) : Bytes := (s.drop (k * i)).take k

/-- `le32(X, i)` (R14). -/
def le32 (s : Bytes) (i : Nat) : W32 := BitVec.ofNat 32 (leNat (wordBytes 4 s i))

/-- `be32(X, i)` (R14). -/
def be32 (s : Bytes) (i : Nat) : W32 := BitVec.ofNat 32 (beNat (wordBytes 4 s i))

/-- `le64(X, i)` (R14). -/
def le64 (s : Bytes) (i : Nat) : W64 := BitVec.ofNat 64 (leNat (wordBytes 8 s i))

/-- `be64(X, i)` (R14). -/
def be64 (s : Bytes) (i : Nat) : W64 := BitVec.ofNat 64 (beNat (wordBytes 8 s i))

/-- `to_le32(w)` (R14). -/
def toLe32 (w : W32) : Bytes := toLeN w.toNat 4

/-- `to_be32(w)` (R14). -/
def toBe32 (w : W32) : Bytes := toBeN w.toNat 4

/-- `to_le64(w)` (R14). -/
def toLe64 (w : W64) : Bytes := toLeN w.toNat 8

/-- `to_be64(w)` (R14). -/
def toBe64 (w : W64) : Bytes := toBeN w.toNat 8

end Sys2Proof.Machine
end

