-- ==== Sys2Proof/Machine/Codec.lean ====
section
/-! DEFINITION. The bit-packing codec (spec/40_codec.md R400 to R415, R421). A text is a byte string of ASCII codes (R400). -/

namespace Sys2Proof.Machine

/-- The `n` consecutive codes from `lo`. -/
def asciiRun (lo n : Nat) : Bytes := (List.range n).map fun i => BitVec.ofNat 8 (lo + i)

/-- '0'..'9' (R421). -/
def asciiDigits : Bytes := asciiRun 0x30 10

/-- 'A'..'Z' (R421). -/
def asciiUpper : Bytes := asciiRun 0x41 26

/-- 'a'..'z' (R421). -/
def asciiLower : Bytes := asciiRun 0x61 26

/-- The padding symbol '=' of every encoding (R401, R421). -/
def padSymbol : Byte := 0x3D

/-- k, the bits of a symbol (R401). -/
def symBits : Enc → Nat
  | .base16 | .base16l => 4
  | .base32 | .base32hex => 5
  | .base64 | .base64url => 6

/-- g, the symbols of a group (R401). -/
def groupSyms : Enc → Nat
  | .base16 | .base16l => 2
  | .base32 | .base32hex => 8
  | .base64 | .base64url => 4

/-- The alphabet, symbol value 0 first (R401, R421). -/
def alphabet : Enc → Bytes
  | .base16 => asciiDigits ++ asciiUpper.take 6
  | .base16l => asciiDigits ++ asciiLower.take 6
  | .base32 => asciiUpper ++ [0x32, 0x33, 0x34, 0x35, 0x36, 0x37]
  | .base32hex => asciiDigits ++ asciiUpper.take 22
  | .base64 => asciiUpper ++ asciiLower ++ asciiDigits ++ [0x2B, 0x2F]
  | .base64url => asciiUpper ++ asciiLower ++ asciiDigits ++ [0x2D, 0x5F]

/-- What a character means to the decoder (R403). -/
inductive Symbol where
  /-- A symbol of the alphabet, with its value. -/
  | val (v : Nat)
  /-- The padding symbol. -/
  | stop
  /-- Any other character. -/
  | invalid
  deriving DecidableEq, Repr

/-- `LUT_e(c)` (R403). -/
def lut (e : Enc) (c : Byte) : Symbol :=
  match (alphabet e).idxOf? c with
  | some v => .val v
  | none => if c = padSymbol then .stop else .invalid

/-- ns, the number of symbols for `n` stream bits: ⌈n / k⌉ (R405). -/
def symCount (e : Enc) (n : Nat) : Nat := (n + symBits e - 1) / symBits e

/-- The padding after `ns` symbols (R406). -/
def padCount (e : Enc) (ns : Nat) : Nat :=
  if ns % groupSyms e = 0 then 0 else groupSyms e - ns % groupSyms e

/-- `Encode_e(b)` (R404 to R407): the bit stream as one integer, zero-padded at its low end to whole symbols. -/
def encodeText (e : Enc) (b : Bytes) : Bytes :=
  let n := 8 * b.length
  let k := symBits e
  let ns := symCount e n
  let v := beNat b <<< (ns * k - n)
  let syms := (List.range ns).map fun i => (alphabet e).getD ((v >>> (k * (ns - 1 - i))) % 2 ^ k) 0
  syms ++ List.replicate (padCount e ns) padSymbol

/-- What a decode gives (R410). -/
inductive Decoded where
  /-- The bytes, and how many characters were used. -/
  | ok (bytes : Bytes) (used : Nat)
  /-- The position of the first character that is neither in the alphabet nor the padding symbol (R412). -/
  | parse (pos : Nat)
  deriving DecidableEq, Repr

/-- The loop of R410 at character `i`, with the bits in `acc` and their number `nb`. It stops at the padding symbol (R411), fails
at a foreign character (R412), and at the end discards the bits that make no byte (R413). -/
def decodeFrom (e : Enc) : Bytes → (i acc nb : Nat) → Bytes → Decoded
  | [], i, _, _, out => .ok out i
  | c :: cs, i, acc, nb, out =>
    match lut e c with
    | .stop => .ok out i
    | .invalid => .parse i
    | .val v =>
      let acc' := (acc <<< symBits e) ||| v
      let nb' := nb + symBits e
      if 8 ≤ nb' then
        decodeFrom e cs (i + 1) (acc' % 2 ^ (nb' - 8)) (nb' - 8) (out ++ [BitVec.ofNat 8 (acc' >>> (nb' - 8))])
      else decodeFrom e cs (i + 1) acc' nb' out

/-- `Decode_e(t)` (R410). -/
def decodeText (e : Enc) (t : Bytes) : Decoded := decodeFrom e t 0 0 0 []

/-- The acceptance test of detection (R415): every character is a symbol of `e` or the padding symbol, and the text decodes to
at least one byte. -/
def encAccepts (e : Enc) (t : Bytes) : Bool :=
  t.all (fun c => (alphabet e).contains c || c == padSymbol) &&
    match decodeText e t with
    | .ok out _ => !out.isEmpty
    | .parse _ => false

/-- `Detect(t)` (R415): the first encoding, in identifier order, that accepts the text. -/
def detectEnc (t : Bytes) : Option Enc := allEncs.find? fun e => encAccepts e t

end Sys2Proof.Machine
end

