-- ==== Sys2Proof/Machine/Md.lean ====
section
/-! DEFINITION. The Merkle-Damgård engine shared by every primitive digest but CRC32 (spec/41_primitive_framework.md R500 to R510). -/

namespace Sys2Proof.Machine

/-- What one MD algorithm supplies to the engine: a row of R510. -/
structure MdAlg (σ : Type) where
  /-- B, the block bytes. -/
  blockBytes : Nat
  /-- Lw, the bytes of the length field. -/
  lenBytes : Nat
  /-- Lorder: the length field is big-endian. -/
  lenBig : Bool
  /-- P, the padding byte. -/
  pad : Byte
  /-- IV. -/
  iv : σ
  /-- Compress. -/
  compress : σ → Bytes → σ
  /-- Out. -/
  out : σ → Bytes

/-- `Init_a()` (R502). -/
def mdInit {σ : Type} (a : MdAlg σ) : MdCtx σ := { h := a.iv, buf := [], n := 0 }

/-- One byte into the block buffer; a full block is compressed and the buffer emptied (R503). -/
def mdByte {σ : Type} (a : MdAlg σ) (st : σ × Bytes) (b : Byte) : σ × Bytes :=
  let buf := st.2 ++ [b]
  if buf.length = a.blockBytes then (a.compress st.1 buf, []) else (st.1, buf)

/-- `Absorb_a(ctx, s)` (R503). -/
def mdAbsorb {σ : Type} (a : MdAlg σ) (c : MdCtx σ) (s : Bytes) : MdCtx σ :=
  let st := s.foldl (mdByte a) (c.h, c.buf)
  { h := st.1, buf := st.2, n := c.n + BitVec.ofNat 64 s.length }

/-- The number of zero bytes of the padding: the least z with N + 1 + z + Lw a multiple of B (R504). -/
def mdZeros {σ : Type} (a : MdAlg σ) (n : Nat) : Nat :=
  (a.blockBytes - (n + 1 + a.lenBytes) % a.blockBytes) % a.blockBytes

/-- The length field: 8·N modulo 2^(8·Lw), in the algorithm's byte order (R504, R506). -/
def mdLenField {σ : Type} (a : MdAlg σ) (n : Nat) : Bytes :=
  let l := (8 * n) % 2 ^ (8 * a.lenBytes)
  if a.lenBig then toBeN l a.lenBytes else toLeN l a.lenBytes

/-- The padded tail T = BUF ‖ P ‖ 0^z ‖ length (R504): one or two blocks (R505). -/
def mdTail {σ : Type} (a : MdAlg σ) (c : MdCtx σ) : Bytes :=
  c.buf ++ [a.pad] ++ List.replicate (mdZeros a c.n.toNat) 0 ++ mdLenField a c.n.toNat

/-- `Final_a(ctx)` (R504): the tail's blocks are compressed in order, as the byte engine does from an empty buffer, and the
chaining state is serialised. The context itself is not changed. -/
def mdFinal {σ : Type} (a : MdAlg σ) (c : MdCtx σ) : Bytes :=
  a.out ((mdTail a c).foldl (mdByte a) (c.h, [])).1

/-- `Final_a(Absorb_a(Init_a(), m))`: the digest of a whole message (R16). -/
def mdDigest {σ : Type} (a : MdAlg σ) (m : Bytes) : Bytes := mdFinal a (mdAbsorb a (mdInit a) m)

end Sys2Proof.Machine
end

