-- ==== Sys2Proof/Machine/Md4Md5.lean ====
section
/-! DEFINITION. The MD4 and MD5 state machines (spec/42_md4_md5.md R600 to R614). -/

namespace Sys2Proof.Machine

/-- The four working words (R602, R612). -/
structure Quad where
  a : W32
  b : W32
  c : W32
  d : W32
  deriving DecidableEq, Repr

/-- The four chaining words as working words. -/
def quadOf (h : List W32) : Quad := ⟨h.getD 0 0, h.getD 1 0, h.getD 2 0, h.getD 3 0⟩

/-- The feed-forward of R602 and R612: (A + a, B + b, C + c, D + d). -/
def quadAdd (h : Quad) (w : Quad) : List W32 := [h.a + w.a, h.b + w.b, h.c + w.c, h.d + w.d]

/-- The initial value of MD4 and of MD5 (R600, R610). -/
def mdIv : List W32 := [0x67452301, 0xEFCDAB89, 0x98BADCFE, 0x10325476]

/-- Every chaining word in little-endian order, word 0 first (R604, R614, R801). -/
def outLe32 (h : List W32) : Bytes := h.flatMap toLe32

/-! ## MD4 -/

/-- F, G and H (R601), by round 0, 1, 2. -/
def md4F (r : Nat) (x y z : W32) : W32 :=
  match r with
  | 0 => (x &&& y) ||| (~~~x &&& z)
  | 1 => (x &&& y) ||| (x &&& z) ||| (y &&& z)
  | _ => x ^^^ y ^^^ z

/-- k_r[0..15] (R603), by round 0, 1, 2. -/
def md4K : List (List Nat) :=
  [ [0, 1, 2, 3, 4, 5, 6, 7, 8, 9, 10, 11, 12, 13, 14, 15],
    [0, 4, 8, 12, 1, 5, 9, 13, 2, 6, 10, 14, 3, 7, 11, 15],
    [0, 8, 4, 12, 2, 10, 6, 14, 1, 9, 5, 13, 3, 11, 7, 15] ]

/-- s_r[0..3] (R603). -/
def md4S : List (List Nat) := [[3, 7, 11, 19], [3, 5, 9, 13], [3, 9, 11, 15]]

/-- The added constants (R603); round 1 adds none. -/
def md4C : List W32 := [0, 0x5A827999, 0x6ED9EBA1]

/-- Step `t mod 16` of round `t / 16` (R602). -/
def md4Step (x : Bytes) (w : Quad) (t : Nat) : Quad :=
  let r := t / 16
  let i := t % 16
  let m := le32 x ((md4K.getD r []).getD i 0)
  let a := rotl (w.a + md4F r w.b w.c w.d + m + md4C.getD r 0) ((md4S.getD r []).getD (i % 4) 0)
  ⟨w.d, a, w.b, w.c⟩

/-- `Compress_MD4(H, X)` (R602). -/
def compressMd4 (h : List W32) (x : Bytes) : List W32 :=
  quadAdd (quadOf h) ((List.range 48).foldl (md4Step x) (quadOf h))

/-- The row MD4 of R510. -/
def md4Alg : MdAlg (List W32) :=
  { blockBytes := 64, lenBytes := 8, lenBig := false, pad := 0x80, iv := mdIv, compress := compressMd4, out := outLe32 }

/-! ## MD5 -/

/-- f(b, c, d) of steps 16r..16r+15 (R611). -/
def md5F (r : Nat) (b c d : W32) : W32 :=
  match r with
  | 0 => (b &&& c) ||| (~~~b &&& d)
  | 1 => (b &&& d) ||| (c &&& ~~~d)
  | 2 => b ^^^ c ^^^ d
  | _ => c ^^^ (b ||| ~~~d)

/-- k(i), the message word of step `i` in the 16 steps of round `r` (R611). -/
def md5K (r i : Nat) : Nat :=
  match r with
  | 0 => i
  | 1 => (5 * i + 1) % 16
  | 2 => (3 * i + 5) % 16
  | _ => 7 * i % 16

/-- The shifts of R611, by round and i mod 4. -/
def md5S : List (List Nat) := [[7, 12, 17, 22], [5, 9, 14, 20], [4, 11, 16, 23], [6, 10, 15, 21]]

/-- T[0..63] (R613). -/
def md5T : List W32 :=
  [0xD76AA478, 0xE8C7B756, 0x242070DB, 0xC1BDCEEE, 0xF57C0FAF, 0x4787C62A, 0xA8304613, 0xFD469501] ++
  [0x698098D8, 0x8B44F7AF, 0xFFFF5BB1, 0x895CD7BE, 0x6B901122, 0xFD987193, 0xA679438E, 0x49B40821] ++
  [0xF61E2562, 0xC040B340, 0x265E5A51, 0xE9B6C7AA, 0xD62F105D, 0x02441453, 0xD8A1E681, 0xE7D3FBC8] ++
  [0x21E1CDE6, 0xC33707D6, 0xF4D50D87, 0x455A14ED, 0xA9E3E905, 0xFCEFA3F8, 0x676F02D9, 0x8D2A4C8A] ++
  [0xFFFA3942, 0x8771F681, 0x6D9D6122, 0xFDE5380C, 0xA4BEEA44, 0x4BDECFA9, 0xF6BB4B60, 0xBEBFBC70] ++
  [0x289B7EC6, 0xEAA127FA, 0xD4EF3085, 0x04881D05, 0xD9D4D039, 0xE6DB99E5, 0x1FA27CF8, 0xC4AC5665] ++
  [0xF4292244, 0x432AFF97, 0xAB9423A7, 0xFC93A039, 0x655B59C3, 0x8F0CCC92, 0xFFEFF47D, 0x85845DD1] ++
  [0x6FA87E4F, 0xFE2CE6E0, 0xA3014314, 0x4E0811A1, 0xF7537E82, 0xBD3AF235, 0x2AD7D2BB, 0xEB86D391]

/-- Step i of R612. -/
def md5Step (x : Bytes) (w : Quad) (i : Nat) : Quad :=
  let r := i / 16
  let m := le32 x (md5K r i)
  let t := w.b + rotl (w.a + md5F r w.b w.c w.d + m + md5T.getD i 0) ((md5S.getD r []).getD (i % 4) 0)
  ⟨w.d, t, w.b, w.c⟩

/-- `Compress_MD5(H, X)` (R612). -/
def compressMd5 (h : List W32) (x : Bytes) : List W32 :=
  quadAdd (quadOf h) ((List.range 64).foldl (md5Step x) (quadOf h))

/-- The row MD5 of R510. -/
def md5Alg : MdAlg (List W32) :=
  { blockBytes := 64, lenBytes := 8, lenBig := false, pad := 0x80, iv := mdIv, compress := compressMd5, out := outLe32 }

end Sys2Proof.Machine
end

