-- ==== Sys2Proof/Machine/Sha.lean ====
section
/-! DEFINITION. The SHA-1 and SHA-2 pipelines (spec/43_sha.md R700 to R731). -/

namespace Sys2Proof.Machine

/-- Every chaining word in big-endian order, word 0 first (R701). -/
def outBe32 (h : List W32) : Bytes := h.flatMap toBe32

/-- Every chaining word in big-endian order, word 0 first (R701). -/
def outBe64 (h : List W64) : Bytes := h.flatMap toBe64

/-! ## SHA-1 -/

/-- The working words (a, b, c, d, e) (R705). -/
structure Quint where
  a : W32
  b : W32
  c : W32
  d : W32
  e : W32
  deriving DecidableEq, Repr

/-- f_t(b, c, d), by t / 20 (R703). -/
def sha1F (r : Nat) (b c d : W32) : W32 :=
  match r with
  | 0 => (b &&& c) ||| (~~~b &&& d)
  | 2 => (b &&& c) ||| (b &&& d) ||| (c &&& d)
  | _ => b ^^^ c ^^^ d

/-- K_t, by t / 20 (R703). -/
def sha1K : List W32 := [0x5A827999, 0x6ED9EBA1, 0x8F1BBCDC, 0xCA62C1D6]

/-- `k` further words of the schedule, onto the words so far with the newest first: W[t-3] is at index 2, W[t-8] at 7, W[t-14] at 13,
W[t-16] at 15 (R704). -/
def sha1Extend : Nat → List W32 → List W32
  | 0, ws => ws
  | k + 1, ws =>
    sha1Extend k (rotl (ws.getD 2 0 ^^^ ws.getD 7 0 ^^^ ws.getD 13 0 ^^^ ws.getD 15 0) 1 :: ws)

/-- W[0..79] (R701, R704). -/
def sha1Schedule (x : Bytes) : List W32 := (sha1Extend 64 ((List.range 16).map (be32 x)).reverse).reverse

/-- Step t (R705). -/
def sha1Step (ws : List W32) (s : Quint) (t : Nat) : Quint :=
  let v := rotl s.a 5 + sha1F (t / 20) s.b s.c s.d + s.e + sha1K.getD (t / 20) 0 + ws.getD t 0
  ⟨v, s.a, rotl s.b 30, s.c, s.d⟩

/-- `Compress_SHA1(H, X)` (R705). -/
def compressSha1 (h : List W32) (x : Bytes) : List W32 :=
  let s0 : Quint := ⟨h.getD 0 0, h.getD 1 0, h.getD 2 0, h.getD 3 0, h.getD 4 0⟩
  let s := (List.range 80).foldl (sha1Step (sha1Schedule x)) s0
  [s0.a + s.a, s0.b + s.b, s0.c + s.c, s0.d + s.d, s0.e + s.e]

/-- H0..H4 (R702). -/
def sha1Iv : List W32 := [0x67452301, 0xEFCDAB89, 0x98BADCFE, 0x10325476, 0xC3D2E1F0]

/-- The row SHA1 of R510. -/
def sha1Alg : MdAlg (List W32) :=
  { blockBytes := 64, lenBytes := 8, lenBig := true, pad := 0x80, iv := sha1Iv, compress := compressSha1, out := outBe32 }

/-! ## SHA-2, for either word width -/

/-- The working words (a, ..., h) (R713, R723). -/
structure Octet (w : Nat) where
  a : BitVec w
  b : BitVec w
  c : BitVec w
  d : BitVec w
  e : BitVec w
  f : BitVec w
  g : BitVec w
  h : BitVec w
  deriving DecidableEq, Repr

/-- What differs between the 32-bit and the 64-bit SHA-2: the four functions of R710 and R720 and the constants of R711 and R721. -/
structure Sha2 (w : Nat) where
  bigSigma0 : BitVec w → BitVec w
  bigSigma1 : BitVec w → BitVec w
  smallSigma0 : BitVec w → BitVec w
  smallSigma1 : BitVec w → BitVec w
  k : List (BitVec w)

/-- Ch(e, f, g) (R710, R720). -/
def shaCh {w : Nat} (e f g : BitVec w) : BitVec w := (e &&& f) ^^^ (~~~e &&& g)

/-- Maj(a, b, c) (R710, R720). -/
def shaMaj {w : Nat} (a b c : BitVec w) : BitVec w := (a &&& b) ^^^ (a &&& c) ^^^ (b &&& c)

/-- `k` further words of the schedule, onto the words so far with the newest first: W[t-2] is at index 1, W[t-7] at 6, W[t-15] at 14,
W[t-16] at 15 (R712, R722). -/
def sha2Extend {w : Nat} (p : Sha2 w) : Nat → List (BitVec w) → List (BitVec w)
  | 0, ws => ws
  | k + 1, ws =>
    sha2Extend p k ((p.smallSigma1 (ws.getD 1 0) + ws.getD 6 0 + p.smallSigma0 (ws.getD 14 0) + ws.getD 15 0) :: ws)

/-- The message schedule: the 16 message words extended to one word for each constant (R712, R722). -/
def sha2Schedule {w : Nat} (p : Sha2 w) (m : List (BitVec w)) : List (BitVec w) :=
  (sha2Extend p (p.k.length - 16) m.reverse).reverse

/-- One step, with the pair (K[t], W[t]) (R713, R723). -/
def sha2Step {w : Nat} (p : Sha2 w) (s : Octet w) (kw : BitVec w × BitVec w) : Octet w :=
  let t1 := s.h + p.bigSigma1 s.e + shaCh s.e s.f s.g + kw.1 + kw.2
  let t2 := p.bigSigma0 s.a + shaMaj s.a s.b s.c
  ⟨t1 + t2, s.a, s.b, s.c, s.d + t1, s.e, s.f, s.g⟩

/-- The compression of R713 and R723 over the 16 message words `m`. -/
def compressSha2 {w : Nat} (p : Sha2 w) (h m : List (BitVec w)) : List (BitVec w) :=
  let s0 : Octet w :=
    ⟨h.getD 0 0, h.getD 1 0, h.getD 2 0, h.getD 3 0, h.getD 4 0, h.getD 5 0, h.getD 6 0, h.getD 7 0⟩
  let s := (p.k.zip (sha2Schedule p m)).foldl (sha2Step p) s0
  [s0.a + s.a, s0.b + s.b, s0.c + s.c, s0.d + s.d, s0.e + s.e, s0.f + s.f, s0.g + s.g, s0.h + s.h]

/-! ## SHA-224 and SHA-256 -/

/-- K[0..63] of SHA-224 and SHA-256 (R711). -/
def sha256K : List W32 :=
  [0x428A2F98, 0x71374491, 0xB5C0FBCF, 0xE9B5DBA5, 0x3956C25B, 0x59F111F1, 0x923F82A4, 0xAB1C5ED5] ++
  [0xD807AA98, 0x12835B01, 0x243185BE, 0x550C7DC3, 0x72BE5D74, 0x80DEB1FE, 0x9BDC06A7, 0xC19BF174] ++
  [0xE49B69C1, 0xEFBE4786, 0x0FC19DC6, 0x240CA1CC, 0x2DE92C6F, 0x4A7484AA, 0x5CB0A9DC, 0x76F988DA] ++
  [0x983E5152, 0xA831C66D, 0xB00327C8, 0xBF597FC7, 0xC6E00BF3, 0xD5A79147, 0x06CA6351, 0x14292967] ++
  [0x27B70A85, 0x2E1B2138, 0x4D2C6DFC, 0x53380D13, 0x650A7354, 0x766A0ABB, 0x81C2C92E, 0x92722C85] ++
  [0xA2BFE8A1, 0xA81A664B, 0xC24B8B70, 0xC76C51A3, 0xD192E819, 0xD6990624, 0xF40E3585, 0x106AA070] ++
  [0x19A4C116, 0x1E376C08, 0x2748774C, 0x34B0BCB5, 0x391C0CB3, 0x4ED8AA4A, 0x5B9CCA4F, 0x682E6FF3] ++
  [0x748F82EE, 0x78A5636F, 0x84C87814, 0x8CC70208, 0x90BEFFFA, 0xA4506CEB, 0xBEF9A3F7, 0xC67178F2]

/-- Σ0, Σ1, σ0, σ1 of R710 and K of R711. -/
def sha256Params : Sha2 32 :=
  { bigSigma0 := fun a => rotr a 2 ^^^ rotr a 13 ^^^ rotr a 22
    bigSigma1 := fun e => rotr e 6 ^^^ rotr e 11 ^^^ rotr e 25
    smallSigma0 := fun x => rotr x 7 ^^^ rotr x 18 ^^^ (x >>> 3)
    smallSigma1 := fun x => rotr x 17 ^^^ rotr x 19 ^^^ (x >>> 10)
    k := sha256K }

/-- `Compress_SHA256(H, X)` (R713). -/
def compressSha256 (h : List W32) (x : Bytes) : List W32 :=
  compressSha2 sha256Params h ((List.range 16).map (be32 x))

/-- The IV of SHA-256 (R714). -/
def sha256Iv : List W32 :=
  [0x6A09E667, 0xBB67AE85, 0x3C6EF372, 0xA54FF53A, 0x510E527F, 0x9B05688C, 0x1F83D9AB, 0x5BE0CD19]

/-- The IV of SHA-224 (R715). -/
def sha224Iv : List W32 :=
  [0xC1059ED8, 0x367CD507, 0x3070DD17, 0xF70E5939, 0xFFC00B31, 0x68581511, 0x64F98FA7, 0xBEFA4FA4]

/-- The row SHA256 of R510; all eight words are output (R716). -/
def sha256Alg : MdAlg (List W32) :=
  { blockBytes := 64, lenBytes := 8, lenBig := true, pad := 0x80, iv := sha256Iv, compress := compressSha256, out := outBe32 }

/-- The row SHA224 of R510; H7 is dropped (R716). -/
def sha224Alg : MdAlg (List W32) :=
  { blockBytes := 64, lenBytes := 8, lenBig := true, pad := 0x80, iv := sha224Iv, compress := compressSha256
    out := fun h => outBe32 (h.take 7) }

/-! ## SHA-384 and SHA-512 -/

/-- K[0..79] of SHA-384 and SHA-512 (R721). -/
def sha512K : List W64 :=
  [0x428A2F98D728AE22, 0x7137449123EF65CD, 0xB5C0FBCFEC4D3B2F, 0xE9B5DBA58189DBBC] ++
  [0x3956C25BF348B538, 0x59F111F1B605D019, 0x923F82A4AF194F9B, 0xAB1C5ED5DA6D8118] ++
  [0xD807AA98A3030242, 0x12835B0145706FBE, 0x243185BE4EE4B28C, 0x550C7DC3D5FFB4E2] ++
  [0x72BE5D74F27B896F, 0x80DEB1FE3B1696B1, 0x9BDC06A725C71235, 0xC19BF174CF692694] ++
  [0xE49B69C19EF14AD2, 0xEFBE4786384F25E3, 0x0FC19DC68B8CD5B5, 0x240CA1CC77AC9C65] ++
  [0x2DE92C6F592B0275, 0x4A7484AA6EA6E483, 0x5CB0A9DCBD41FBD4, 0x76F988DA831153B5] ++
  [0x983E5152EE66DFAB, 0xA831C66D2DB43210, 0xB00327C898FB213F, 0xBF597FC7BEEF0EE4] ++
  [0xC6E00BF33DA88FC2, 0xD5A79147930AA725, 0x06CA6351E003826F, 0x142929670A0E6E70] ++
  [0x27B70A8546D22FFC, 0x2E1B21385C26C926, 0x4D2C6DFC5AC42AED, 0x53380D139D95B3DF] ++
  [0x650A73548BAF63DE, 0x766A0ABB3C77B2A8, 0x81C2C92E47EDAEE6, 0x92722C851482353B] ++
  [0xA2BFE8A14CF10364, 0xA81A664BBC423001, 0xC24B8B70D0F89791, 0xC76C51A30654BE30] ++
  [0xD192E819D6EF5218, 0xD69906245565A910, 0xF40E35855771202A, 0x106AA07032BBD1B8] ++
  [0x19A4C116B8D2D0C8, 0x1E376C085141AB53, 0x2748774CDF8EEB99, 0x34B0BCB5E19B48A8] ++
  [0x391C0CB3C5C95A63, 0x4ED8AA4AE3418ACB, 0x5B9CCA4F7763E373, 0x682E6FF3D6B2B8A3] ++
  [0x748F82EE5DEFB2FC, 0x78A5636F43172F60, 0x84C87814A1F0AB72, 0x8CC702081A6439EC] ++
  [0x90BEFFFA23631E28, 0xA4506CEBDE82BDE9, 0xBEF9A3F7B2C67915, 0xC67178F2E372532B] ++
  [0xCA273ECEEA26619C, 0xD186B8C721C0C207, 0xEADA7DD6CDE0EB1E, 0xF57D4F7FEE6ED178] ++
  [0x06F067AA72176FBA, 0x0A637DC5A2C898A6, 0x113F9804BEF90DAE, 0x1B710B35131C471B] ++
  [0x28DB77F523047D84, 0x32CAAB7B40C72493, 0x3C9EBE0A15C9BEBC, 0x431D67C49C100D4C] ++
  [0x4CC5D4BECB3E42B6, 0x597F299CFC657E2A, 0x5FCB6FAB3AD6FAEC, 0x6C44198C4A475817]

/-- Σ0, Σ1, σ0, σ1 of R720 and K of R721. -/
def sha512Params : Sha2 64 :=
  { bigSigma0 := fun a => rotr a 28 ^^^ rotr a 34 ^^^ rotr a 39
    bigSigma1 := fun e => rotr e 14 ^^^ rotr e 18 ^^^ rotr e 41
    smallSigma0 := fun x => rotr x 1 ^^^ rotr x 8 ^^^ (x >>> 7)
    smallSigma1 := fun x => rotr x 19 ^^^ rotr x 61 ^^^ (x >>> 6)
    k := sha512K }

/-- `Compress_SHA512(H, X)` (R723). -/
def compressSha512 (h : List W64) (x : Bytes) : List W64 :=
  compressSha2 sha512Params h ((List.range 16).map (be64 x))

/-- The IV of SHA-512 (R724). -/
def sha512Iv : List W64 :=
  [0x6A09E667F3BCC908, 0xBB67AE8584CAA73B, 0x3C6EF372FE94F82B, 0xA54FF53A5F1D36F1,
   0x510E527FADE682D1, 0x9B05688C2B3E6C1F, 0x1F83D9ABFB41BD6B, 0x5BE0CD19137E2179]

/-- The IV of SHA-384 (R725). -/
def sha384Iv : List W64 :=
  [0xCBBB9D5DC1059ED8, 0x629A292A367CD507, 0x9159015A3070DD17, 0x152FECD8F70E5939,
   0x67332667FFC00B31, 0x8EB44A8768581511, 0xDB0C2E0D64F98FA7, 0x47B5481DBEFA4FA4]

/-- The row SHA512 of R510; all eight words are output (R726). -/
def sha512Alg : MdAlg (List W64) :=
  { blockBytes := 128, lenBytes := 16, lenBig := true, pad := 0x80, iv := sha512Iv, compress := compressSha512, out := outBe64 }

/-- The row SHA384 of R510; H6 and H7 are dropped (R726). -/
def sha384Alg : MdAlg (List W64) :=
  { blockBytes := 128, lenBytes := 16, lenBig := true, pad := 0x80, iv := sha384Iv, compress := compressSha512
    out := fun h => outBe64 (h.take 6) }

end Sys2Proof.Machine
end

