-- ==== Sys2Proof/Machine/Tiger.lean ====
section
/-! DEFINITION. The Tiger round engine (spec/46_tiger.md R1000 to R1010). -/

namespace Sys2Proof.Machine

/-- Three words in their roles (a, b, c) (R1003). -/
structure Triple where
  a : W64
  b : W64
  c : W64
  deriving DecidableEq, Repr

/-- `byte_k(x)` (46_tiger.md, Notation). -/
def byteAt (k : Nat) (x : W64) : Nat := (x >>> (8 * k)).toNat % 256

/-- One round on the roles (a, b, c) (R1003). -/
def tigerRound (x mul : W64) (s : Triple) : Triple :=
  let c := s.c ^^^ x
  let a := s.a - (tigerT1.getD (byteAt 0 c) 0 ^^^ tigerT2.getD (byteAt 2 c) 0
    ^^^ tigerT3.getD (byteAt 4 c) 0 ^^^ tigerT4.getD (byteAt 6 c) 0)
  let b := s.b + (tigerT4.getD (byteAt 1 c) 0 ^^^ tigerT3.getD (byteAt 3 c) 0
    ^^^ tigerT2.getD (byteAt 5 c) 0 ^^^ tigerT1.getD (byteAt 7 c) 0)
  ⟨a, b * mul, c⟩

/-- `round(a, b, c, ...)` then the next round's roles: what was b plays a, c plays b, a plays c (R1004). -/
def tigerTurn (mul : W64) (s : Triple) (x : W64) : Triple :=
  let t := tigerRound x mul s
  ⟨t.b, t.c, t.a⟩

/-- One pass: eight rounds, the roles rotating, so that after the eighth the word that began as c stands in the place of a (8 ≡ 2
modulo 3); the result is put back in the roles it came in (R1004). -/
def tigerPass (xs : List W64) (mul : W64) (s : Triple) : Triple :=
  let t := xs.foldl (tigerTurn mul) s
  ⟨t.b, t.c, t.a⟩

/-- The key schedule, statement by statement (R1005). -/
def tigerKey (x : List W64) : List W64 :=
  let x0 := x.getD 0 0 - (x.getD 7 0 ^^^ 0xA5A5A5A5A5A5A5A5)
  let x1 := x.getD 1 0 ^^^ x0
  let x2 := x.getD 2 0 + x1
  let x3 := x.getD 3 0 - (x2 ^^^ ((~~~x1) <<< 19))
  let x4 := x.getD 4 0 ^^^ x3
  let x5 := x.getD 5 0 + x4
  let x6 := x.getD 6 0 - (x5 ^^^ ((~~~x4) >>> 23))
  let x7 := x.getD 7 0 ^^^ x6
  let x0 := x0 + x7
  let x1 := x1 - (x0 ^^^ ((~~~x7) <<< 19))
  let x2 := x2 ^^^ x1
  let x3 := x3 + x2
  let x4 := x4 - (x3 ^^^ ((~~~x2) >>> 23))
  let x5 := x5 ^^^ x4
  let x6 := x6 + x5
  let x7 := x7 - (x6 ^^^ 0x0123456789ABCDEF)
  [x0, x1, x2, x3, x4, x5, x6, x7]

/-- `Compress_TIGER((a, b, c), X)` (R1006). The second pass takes the roles (c, a, b), the third (b, c, a). -/
def compressTiger (h : List W64) (blk : Bytes) : List W64 :=
  let s : Triple := ⟨h.getD 0 0, h.getD 1 0, h.getD 2 0⟩
  let x := (List.range 8).map (le64 blk)
  let p := tigerPass x 5 s
  let y := tigerKey x
  let q := tigerPass y 7 ⟨p.c, p.a, p.b⟩
  let z := tigerKey y
  let r := tigerPass z 9 ⟨q.c, q.a, q.b⟩
  let a := r.c
  let b := r.a
  let c := r.b
  [a ^^^ s.a, b - s.b, c + s.c]

/-- `Out_TIGER` (R1001). -/
def outLe64 (h : List W64) : Bytes := h.flatMap toLe64

/-- The row TIGER of R510: padding byte 0x01 (R1000), IV of R1002. -/
def tigerAlg : MdAlg (List W64) :=
  { blockBytes := 64, lenBytes := 8, lenBig := false, pad := 0x01
    iv := [0x0123456789ABCDEF, 0xFEDCBA9876543210, 0xF096A5B4C3B2E187], compress := compressTiger, out := outLe64 }

end Sys2Proof.Machine
end

