-- ==== Sys2Proof/Machine/Composite.lean ====
section
/-! DEFINITION. The Merkle collapsing engine and the composite engines ED2K, TTH and AICH (spec/47_composite.md R1100 to R1150). -/

namespace Sys2Proof.Machine

/-! ## The Merkle collapsing engine (R1110, R1111) -/

/-- An accumulator that holds nothing. -/
def merkleEmpty : Merkle := { count := 0, stk := List.replicate Config.nlevel none }

/-- The loop of Push from level `i` (R1110), over the levels from `i` up: while the counter's bit is 1 the pending left sibling is
combined with the hash and its level emptied; at the first 0 bit the hash is parked. An entry whose bit is 1 holds a value
(R134), and is emptied when its bit becomes 0 (DEDUCED, notes/assumptions/11.md); the stack never runs out of levels (R1112). -/
def pushFrom (nh : Bytes → Bytes → Bytes) (n : W64) : Nat → List (Option Bytes) → Bytes → List (Option Bytes)
  | _, [], _ => []
  | i, e :: rest, x =>
    if n.getLsbD i then none :: pushFrom nh n (i + 1) rest (nh (e.getD []) x) else some x :: rest

/-- `Push((N, STK), x)` with the node function NH (R1110). -/
def merklePush (nh : Bytes → Bytes → Bytes) (m : Merkle) (x : Bytes) : Merkle :=
  { count := m.count + 1, stk := pushFrom nh m.count 0 m.stk x }

/-- The loop of Fold over the levels from `i` up: `acc` is nothing below the lowest set bit (R1111). -/
def foldFrom (nh : Bytes → Bytes → Bytes) (n : W64) : Nat → Option Bytes → List (Option Bytes) → Option Bytes
  | _, acc, [] => acc
  | i, acc, e :: rest =>
    if n.getLsbD i then
      match acc with
      | none => foldFrom nh n (i + 1) (some (e.getD [])) rest
      | some a => foldFrom nh n (i + 1) (some (nh (e.getD []) a)) rest
    else foldFrom nh n (i + 1) acc rest

/-- `Fold((N, STK))`, defined for N ≥ 1 (R1111); no rule folds an accumulator that holds nothing. -/
def merkleFold (nh : Bytes → Bytes → Bytes) (m : Merkle) : Bytes := (foldFrom nh m.count 0 none m.stk).getD []

/-! ## ED2K -/

/-- `Init_ED2K()` (R1102). -/
def ed2kInit : Ed2kCtx := { inner := mdInit md4Alg, outer := mdInit md4Alg, cb := 0, nch := 0 }

/-- One byte: a full chunk is closed only now, when a further byte arrives (R1103). -/
def ed2kByte (c : Ed2kCtx) (v : Byte) : Ed2kCtx :=
  if c.cb = Config.chunkBytes then
    { inner := mdAbsorb md4Alg (mdInit md4Alg) [v]
      outer := mdAbsorb md4Alg c.outer (mdFinal md4Alg c.inner)
      cb := 1
      nch := c.nch + 1 }
  else
    { c with inner := mdAbsorb md4Alg c.inner [v], cb := c.cb + 1 }

/-- `Absorb_ED2K(ctx, s)` (R1103). -/
def ed2kAbsorb (c : Ed2kCtx) (s : Bytes) : Ed2kCtx := s.foldl ed2kByte c

/-- `Final_ED2K(ctx)` (R1104). -/
def ed2kFinal (c : Ed2kCtx) : Bytes :=
  if c.nch = 0 then mdFinal md4Alg c.inner
  else mdFinal md4Alg (mdAbsorb md4Alg c.outer (mdFinal md4Alg c.inner))

/-! ## TTH -/

/-- `LH_TTH(d)` (R1120). -/
def leafHashTth (d : Bytes) : Bytes := mdDigest tigerAlg (0x00 :: d)

/-- `NH_TTH(l, r)` (R1120). -/
def nodeHashTth (l r : Bytes) : Bytes := mdDigest tigerAlg (0x01 :: (l ++ r))

/-- The context of an open leaf with no data: the tag byte absorbed (R1121). -/
def tthLeafStart : MdCtx (List W64) := mdAbsorb tigerAlg (mdInit tigerAlg) [0x00]

/-- `Init_TTH()` (R1121). -/
def tthInit : TthCtx := { lctx := tthLeafStart, lb := 0, leaves := merkleEmpty }

/-- One byte; a leaf that holds LEAF bytes is closed at once (R1122). -/
def tthByte (c : TthCtx) (v : Byte) : TthCtx :=
  let l := mdAbsorb tigerAlg c.lctx [v]
  if c.lb + 1 = Config.leafBytes then
    { lctx := tthLeafStart, lb := 0, leaves := merklePush nodeHashTth c.leaves (mdFinal tigerAlg l) }
  else { c with lctx := l, lb := c.lb + 1 }

/-- `Absorb_TTH(ctx, s)` (R1122). -/
def tthAbsorb (c : TthCtx) (s : Bytes) : TthCtx := s.foldl tthByte c

/-- `Final_TTH(ctx)`, on a copy (R1123). -/
def tthFinal (c : TthCtx) : Bytes :=
  if 0 < c.lb ∨ c.leaves.count = 0 then
    merkleFold nodeHashTth (merklePush nodeHashTth c.leaves (mdFinal tigerAlg c.lctx))
  else merkleFold nodeHashTth c.leaves

/-! ## AICH -/

/-- `LH_AICH(d)` (R1140). -/
def leafHashAich (d : Bytes) : Bytes := mdDigest sha1Alg (0x00 :: d)

/-- `NH_AICH(l, r)` (R1140). -/
def nodeHashAich (l r : Bytes) : Bytes := mdDigest sha1Alg (0x01 :: (l ++ r))

/-- The context of an open part with no data: the tag byte absorbed (R1141). -/
def aichPartStart : MdCtx (List W32) := mdAbsorb sha1Alg (mdInit sha1Alg) [0x00]

/-- `Init_AICH(size)` (R1141). -/
def aichInit (size : W64) : AichCtx :=
  { pctx := aichPartStart, pb := 0, cpos := 0, parts := merkleEmpty, chunks := merkleEmpty, asize := size }

/-- Absorb one byte into the open part and, when the part is full or the chunk ends, close the part (R1142). -/
def aichPartByte (c : AichCtx) (v : Byte) : AichCtx :=
  let p := mdAbsorb sha1Alg c.pctx [v]
  if c.pb + 1 = Config.partBytes ∨ c.cpos + 1 = Config.chunkBytes then
    { c with pctx := aichPartStart, pb := 0, cpos := c.cpos + 1
             parts := merklePush nodeHashAich c.parts (mdFinal sha1Alg p) }
  else { c with pctx := p, pb := c.pb + 1, cpos := c.cpos + 1 }

/-- Close the chunk when it is full (R1142). -/
def aichCloseChunk (c : AichCtx) : AichCtx :=
  if c.cpos = Config.chunkBytes then
    { c with chunks := merklePush nodeHashAich c.chunks (merkleFold nodeHashAich c.parts)
             parts := merkleEmpty, cpos := 0 }
  else c

/-- One byte (R1142). -/
def aichByte (c : AichCtx) (v : Byte) : AichCtx := aichCloseChunk (aichPartByte c v)

/-- `Absorb_AICH(ctx, s)` (R1142). -/
def aichAbsorb (c : AichCtx) (s : Bytes) : AichCtx := s.foldl aichByte c

/-- The part accumulator at Final: an open part, or the one empty part of an empty file, is pushed (R1143). -/
def aichFinalParts (c : AichCtx) : Merkle :=
  if 0 < c.pb ∨ (c.parts.count = 0 ∧ c.chunks.count = 0) then
    merklePush nodeHashAich c.parts (mdFinal sha1Alg c.pctx)
  else c.parts

/-- The chunk accumulator at Final: an open chunk is pushed (R1143). -/
def aichFinalChunks (c : AichCtx) : Merkle :=
  if (aichFinalParts c).count = 0 then c.chunks
  else merklePush nodeHashAich c.chunks (merkleFold nodeHashAich (aichFinalParts c))

/-- `Final_AICH(ctx)`, on a copy (R1143). -/
def aichFinal (c : AichCtx) : Bytes := merkleFold nodeHashAich (aichFinalChunks c)

end Sys2Proof.Machine
end

