-- ==== Sys2Proof/Machine/Crc.lean ====
section
/-! DEFINITION. The CRC32 generator (spec/41_primitive_framework.md R520 to R523). -/

namespace Sys2Proof.Machine

/-- One of the eight steps that generate a table entry, with the reflected polynomial (R522). -/
def crcShift (c : W32) : W32 :=
  if c.getLsbD 0 then (c >>> 1) ^^^ 0xEDB88320 else c >>> 1

/-- CRCT[n] (R522). -/
def crcEntry (n : W32) : W32 :=
  crcShift (crcShift (crcShift (crcShift (crcShift (crcShift (crcShift (crcShift n)))))))

/-- `Init_CRC32()` (R520). -/
def crcInit : W32 := 0xFFFFFFFF

/-- One byte (R521). -/
def crcByte (r : W32) (b : Byte) : W32 := crcEntry ((r ^^^ b.zeroExtend 32) &&& 0xFF) ^^^ (r >>> 8)

/-- `Absorb_CRC32(R, s)` (R521). -/
def crcAbsorb (r : W32) (s : Bytes) : W32 := s.foldl crcByte r

/-- `Final_CRC32(R)` (R521): big-endian, most significant byte first (R210). -/
def crcFinal (r : W32) : Bytes := toBe32 (r ^^^ 0xFFFFFFFF)

end Sys2Proof.Machine
end

