-- ==== Sys2Proof/Machine/Ripemd.lean ====
section
/-! DEFINITION. The RIPEMD round engines (spec/44_ripemd.md R800 to R811). -/

namespace Sys2Proof.Machine

/-- The Boolean functions f1..f5 (R802). -/
def ripF (j : Nat) (x y z : W32) : W32 :=
  match j with
  | 1 => x ^^^ y ^^^ z
  | 2 => (x &&& y) ||| (~~~x &&& z)
  | 3 => (x ||| ~~~y) ^^^ z
  | 4 => (x &&& z) ||| (y &&& ~~~z)
  | _ => x ^^^ (y ||| ~~~z)

/-- r_j[i], the left line's message words (R803). -/
def ripWordL : List (List Nat) :=
  [ [0, 1, 2, 3, 4, 5, 6, 7, 8, 9, 10, 11, 12, 13, 14, 15],
    [7, 4, 13, 1, 10, 6, 15, 3, 12, 0, 9, 5, 2, 14, 11, 8],
    [3, 10, 14, 4, 9, 15, 8, 1, 2, 7, 0, 6, 13, 11, 5, 12],
    [1, 9, 11, 10, 0, 8, 12, 4, 13, 3, 7, 15, 14, 5, 6, 2],
    [4, 0, 5, 9, 7, 12, 2, 10, 14, 1, 3, 8, 11, 6, 15, 13] ]

/-- r'_j[i], the right line's message words (R803). -/
def ripWordR : List (List Nat) :=
  [ [5, 14, 7, 0, 9, 2, 11, 4, 13, 6, 15, 8, 1, 10, 3, 12],
    [6, 11, 3, 7, 0, 13, 5, 10, 14, 15, 8, 12, 4, 9, 1, 2],
    [15, 5, 1, 3, 7, 14, 6, 9, 11, 8, 12, 2, 10, 0, 4, 13],
    [8, 6, 4, 1, 3, 11, 15, 0, 5, 12, 2, 13, 9, 7, 10, 14],
    [12, 15, 10, 4, 1, 5, 8, 7, 6, 2, 13, 14, 0, 3, 9, 11] ]

/-- s_j[i], the left line's rotations (R804). -/
def ripRotL : List (List Nat) :=
  [ [11, 14, 15, 12, 5, 8, 7, 9, 11, 13, 14, 15, 6, 7, 9, 8],
    [7, 6, 8, 13, 11, 9, 7, 15, 7, 12, 15, 9, 11, 7, 13, 12],
    [11, 13, 6, 7, 14, 9, 13, 15, 14, 8, 13, 6, 5, 12, 7, 5],
    [11, 12, 14, 15, 14, 15, 9, 8, 9, 14, 5, 6, 8, 6, 5, 12],
    [9, 15, 5, 11, 6, 8, 13, 12, 5, 12, 13, 14, 11, 8, 5, 6] ]

/-- s'_j[i], the right line's rotations (R804). -/
def ripRotR : List (List Nat) :=
  [ [8, 9, 9, 11, 13, 15, 15, 5, 7, 7, 8, 11, 14, 14, 12, 6],
    [9, 13, 15, 7, 12, 8, 9, 11, 7, 7, 12, 7, 6, 15, 13, 11],
    [9, 7, 15, 11, 8, 6, 6, 14, 12, 13, 5, 14, 13, 13, 7, 5],
    [15, 5, 8, 11, 14, 14, 6, 14, 6, 9, 12, 9, 12, 5, 15, 8],
    [8, 5, 12, 9, 12, 5, 14, 6, 8, 13, 6, 5, 15, 13, 11, 11] ]

/-- K_1..K_5, the left line's constants (R805). -/
def ripKL : List W32 := [0x00000000, 0x5A827999, 0x6ED9EBA1, 0x8F1BBCDC, 0xA953FD4E]

/-- K'_1..K'_5 of RIPEMD-160 and RIPEMD-320 (R805). -/
def ripKR5 : List W32 := [0x50A28BE6, 0x5C4DD124, 0x6D703EF3, 0x7A6D76E9, 0x00000000]

/-- K'_1..K'_4 of RIPEMD-128 and RIPEMD-256 (R805). -/
def ripKR4 : List W32 := [0x50A28BE6, 0x5C4DD124, 0x6D703EF3, 0x00000000]

/-- Entry [j-1][i] of a table of rounds 1..5 (R803, R804). -/
def ripAt (t : List (List Nat)) (j i : Nat) : Nat := (t.getD (j - 1) []).getD i 0

/-! ## The 5-word lines: RIPEMD-160 and RIPEMD-320 -/

/-- One line's working words (A, B, C, D, E) (R806). -/
structure Line5 where
  a : W32
  b : W32
  c : W32
  d : W32
  e : W32
  deriving DecidableEq, Repr

/-- Step5 (R806), with the value of f(B, C, D) + m + k given by its parts. -/
def ripStep5 (j : Nat) (m k : W32) (s : Nat) (l : Line5) : Line5 :=
  ⟨l.e, rotl (l.a + ripF j l.b l.c l.d + m + k) s + l.e, l.b, rotl l.c 10, l.d⟩

/-- Both lines' step i of round j (R806): left with f_j, right with f_(6-j) (R802). -/
def ripPair5 (x : Bytes) (j : Nat) (p : Line5 × Line5) (i : Nat) : Line5 × Line5 :=
  (ripStep5 j (le32 x (ripAt ripWordL j i)) (ripKL.getD (j - 1) 0) (ripAt ripRotL j i) p.1,
   ripStep5 (6 - j) (le32 x (ripAt ripWordR j i)) (ripKR5.getD (j - 1) 0) (ripAt ripRotR j i) p.2)

/-- The exchange after round j of word SW5[j], SW5 = [B, D, A, C, E] (R806, R809). -/
def ripSwap5 (j : Nat) (p : Line5 × Line5) : Line5 × Line5 :=
  match j with
  | 1 => ({ p.1 with b := p.2.b }, { p.2 with b := p.1.b })
  | 2 => ({ p.1 with d := p.2.d }, { p.2 with d := p.1.d })
  | 3 => ({ p.1 with a := p.2.a }, { p.2 with a := p.1.a })
  | 4 => ({ p.1 with c := p.2.c }, { p.2 with c := p.1.c })
  | _ => ({ p.1 with e := p.2.e }, { p.2 with e := p.1.e })

/-- Round j: 16 steps, then the exchange where the variant makes one (R806). -/
def ripRound5 (x : Bytes) (swap : Bool) (p : Line5 × Line5) (j : Nat) : Line5 × Line5 :=
  let q := (List.range 16).foldl (ripPair5 x j) p
  if swap then ripSwap5 j q else q

/-- Lines5 (R806): rounds 1..5. -/
def ripLines5 (x : Bytes) (swap : Bool) (p : Line5 × Line5) : Line5 × Line5 :=
  [1, 2, 3, 4, 5].foldl (ripRound5 x swap) p

/-- Chaining words k..k+4 as a line. -/
def line5Of (h : List W32) (k : Nat) : Line5 :=
  ⟨h.getD k 0, h.getD (k + 1) 0, h.getD (k + 2) 0, h.getD (k + 3) 0, h.getD (k + 4) 0⟩

/-- `Compress_RIPEMD160(H, X)` (R806). -/
def compressRip160 (h : List W32) (x : Bytes) : List W32 :=
  let s := line5Of h 0
  let p := ripLines5 x false (s, s)
  [s.b + p.1.c + p.2.d, s.c + p.1.d + p.2.e, s.d + p.1.e + p.2.a, s.e + p.1.a + p.2.b, s.a + p.1.b + p.2.c]

/-- `Compress_RIPEMD320(H, X)` (R809). -/
def compressRip320 (h : List W32) (x : Bytes) : List W32 :=
  let s := line5Of h 0
  let t := line5Of h 5
  let p := ripLines5 x true (s, t)
  [s.a + p.1.a, s.b + p.1.b, s.c + p.1.c, s.d + p.1.d, s.e + p.1.e,
   t.a + p.2.a, t.b + p.2.b, t.c + p.2.c, t.d + p.2.d, t.e + p.2.e]

/-! ## The 4-word lines: RIPEMD-128 and RIPEMD-256 -/

/-- Step4 (R807). -/
def ripStep4 (j : Nat) (m k : W32) (s : Nat) (l : Quad) : Quad :=
  ⟨l.d, rotl (l.a + ripF j l.b l.c l.d + m + k) s, l.b, l.c⟩

/-- Both lines' step i of round j (R807): left with f_j, right with f_(5-j) (R802). -/
def ripPair4 (x : Bytes) (j : Nat) (p : Quad × Quad) (i : Nat) : Quad × Quad :=
  (ripStep4 j (le32 x (ripAt ripWordL j i)) (ripKL.getD (j - 1) 0) (ripAt ripRotL j i) p.1,
   ripStep4 (5 - j) (le32 x (ripAt ripWordR j i)) (ripKR4.getD (j - 1) 0) (ripAt ripRotR j i) p.2)

/-- The exchange after round j of word SW4[j], SW4 = [A, B, C, D] (R808). -/
def ripSwap4 (j : Nat) (p : Quad × Quad) : Quad × Quad :=
  match j with
  | 1 => ({ p.1 with a := p.2.a }, { p.2 with a := p.1.a })
  | 2 => ({ p.1 with b := p.2.b }, { p.2 with b := p.1.b })
  | 3 => ({ p.1 with c := p.2.c }, { p.2 with c := p.1.c })
  | _ => ({ p.1 with d := p.2.d }, { p.2 with d := p.1.d })

/-- Round j: 16 steps, then the exchange where the variant makes one (R807). -/
def ripRound4 (x : Bytes) (swap : Bool) (p : Quad × Quad) (j : Nat) : Quad × Quad :=
  let q := (List.range 16).foldl (ripPair4 x j) p
  if swap then ripSwap4 j q else q

/-- Lines4 (R807): rounds 1..4. -/
def ripLines4 (x : Bytes) (swap : Bool) (p : Quad × Quad) : Quad × Quad :=
  [1, 2, 3, 4].foldl (ripRound4 x swap) p

/-- `Compress_RIPEMD128(H, X)` (R807). -/
def compressRip128 (h : List W32) (x : Bytes) : List W32 :=
  let s := quadOf h
  let p := ripLines4 x false (s, s)
  [s.b + p.1.c + p.2.d, s.c + p.1.d + p.2.a, s.d + p.1.a + p.2.b, s.a + p.1.b + p.2.c]

/-- `Compress_RIPEMD256(H, X)` (R808). -/
def compressRip256 (h : List W32) (x : Bytes) : List W32 :=
  let s := quadOf h
  let t := quadOf (h.drop 4)
  let p := ripLines4 x true (s, t)
  quadAdd s p.1 ++ quadAdd t p.2

/-! ## The rows of R510, with the initial values of R810 -/

/-- The row RIPEMD128 of R510. -/
def rip128Alg : MdAlg (List W32) :=
  { blockBytes := 64, lenBytes := 8, lenBig := false, pad := 0x80
    iv := [0x67452301, 0xEFCDAB89, 0x98BADCFE, 0x10325476], compress := compressRip128, out := outLe32 }

/-- The row RIPEMD160 of R510. -/
def rip160Alg : MdAlg (List W32) :=
  { blockBytes := 64, lenBytes := 8, lenBig := false, pad := 0x80
    iv := [0x67452301, 0xEFCDAB89, 0x98BADCFE, 0x10325476, 0xC3D2E1F0], compress := compressRip160, out := outLe32 }

/-- The row RIPEMD256 of R510. -/
def rip256Alg : MdAlg (List W32) :=
  { blockBytes := 64, lenBytes := 8, lenBig := false, pad := 0x80
    iv := [0x67452301, 0xEFCDAB89, 0x98BADCFE, 0x10325476, 0x76543210, 0xFEDCBA98, 0x89ABCDEF, 0x01234567]
    compress := compressRip256, out := outLe32 }

/-- The row RIPEMD320 of R510. -/
def rip320Alg : MdAlg (List W32) :=
  { blockBytes := 64, lenBytes := 8, lenBig := false, pad := 0x80
    iv := [0x67452301, 0xEFCDAB89, 0x98BADCFE, 0x10325476, 0xC3D2E1F0,
           0x76543210, 0xFEDCBA98, 0x89ABCDEF, 0x01234567, 0x3C2D1E0F]
    compress := compressRip320, out := outLe32 }

end Sys2Proof.Machine
end

