-- ==== Sys2Proof/Machine/Whirlpool.lean ====
section
/-! DEFINITION. The Whirlpool round engine (spec/45_whirlpool.md R900 to R911). A state is an 8×8 byte matrix kept row-major: entry
[i][j] is byte 8·i + j (R901). -/

namespace Sys2Proof.Machine

/-- The S-box S[u], 16 entries a row, row the high nibble of u (R904). -/
def whirlS : List Byte :=
  [0x18, 0x23, 0xC6, 0xE8, 0x87, 0xB8, 0x01, 0x4F, 0x36, 0xA6, 0xD2, 0xF5, 0x79, 0x6F, 0x91, 0x52] ++
  [0x60, 0xBC, 0x9B, 0x8E, 0xA3, 0x0C, 0x7B, 0x35, 0x1D, 0xE0, 0xD7, 0xC2, 0x2E, 0x4B, 0xFE, 0x57] ++
  [0x15, 0x77, 0x37, 0xE5, 0x9F, 0xF0, 0x4A, 0xDA, 0x58, 0xC9, 0x29, 0x0A, 0xB1, 0xA0, 0x6B, 0x85] ++
  [0xBD, 0x5D, 0x10, 0xF4, 0xCB, 0x3E, 0x05, 0x67, 0xE4, 0x27, 0x41, 0x8B, 0xA7, 0x7D, 0x95, 0xD8] ++
  [0xFB, 0xEE, 0x7C, 0x66, 0xDD, 0x17, 0x47, 0x9E, 0xCA, 0x2D, 0xBF, 0x07, 0xAD, 0x5A, 0x83, 0x33] ++
  [0x63, 0x02, 0xAA, 0x71, 0xC8, 0x19, 0x49, 0xD9, 0xF2, 0xE3, 0x5B, 0x88, 0x9A, 0x26, 0x32, 0xB0] ++
  [0xE9, 0x0F, 0xD5, 0x80, 0xBE, 0xCD, 0x34, 0x48, 0xFF, 0x7A, 0x90, 0x5F, 0x20, 0x68, 0x1A, 0xAE] ++
  [0xB4, 0x54, 0x93, 0x22, 0x64, 0xF1, 0x73, 0x12, 0x40, 0x08, 0xC3, 0xEC, 0xDB, 0xA1, 0x8D, 0x3D] ++
  [0x97, 0x00, 0xCF, 0x2B, 0x76, 0x82, 0xD6, 0x1B, 0xB5, 0xAF, 0x6A, 0x50, 0x45, 0xF3, 0x30, 0xEF] ++
  [0x3F, 0x55, 0xA2, 0xEA, 0x65, 0xBA, 0x2F, 0xC0, 0xDE, 0x1C, 0xFD, 0x4D, 0x92, 0x75, 0x06, 0x8A] ++
  [0xB2, 0xE6, 0x0E, 0x1F, 0x62, 0xD4, 0xA8, 0x96, 0xF9, 0xC5, 0x25, 0x59, 0x84, 0x72, 0x39, 0x4C] ++
  [0x5E, 0x78, 0x38, 0x8C, 0xD1, 0xA5, 0xE2, 0x61, 0xB3, 0x21, 0x9C, 0x1E, 0x43, 0xC7, 0xFC, 0x04] ++
  [0x51, 0x99, 0x6D, 0x0D, 0xFA, 0xDF, 0x7E, 0x24, 0x3B, 0xAB, 0xCE, 0x11, 0x8F, 0x4E, 0xB7, 0xEB] ++
  [0x3C, 0x81, 0x94, 0xF7, 0xB9, 0x13, 0x2C, 0xD3, 0xE7, 0x6E, 0xC4, 0x03, 0x56, 0x44, 0x7F, 0xA9] ++
  [0x2A, 0xBB, 0xC1, 0x53, 0xDC, 0x0B, 0x9D, 0x6C, 0x31, 0x74, 0xF6, 0x46, 0xAC, 0x89, 0x14, 0xE1] ++
  [0x16, 0x3A, 0x69, 0x09, 0x70, 0xB6, 0xD0, 0xED, 0xCC, 0x42, 0x98, 0xA4, 0x28, 0x5C, 0xF8, 0x86]

/-- The loop of R902: `k` more bits of v may remain; it ends when v is 0. -/
def gfMulGo : Nat → (u v p : Nat) → Nat
  | 0, _, _, p => p
  | k + 1, u, v, p =>
    if v = 0 then p
    else
      let p' := if v % 2 = 1 then p ^^^ u else p
      let u' := if 256 ≤ 2 * u then (2 * u) ^^^ 0x11D else 2 * u
      gfMulGo k u' (v / 2) p'

/-- u • v in GF(2^8) modulo 0x11D (R902). -/
def gfMul (u v : Byte) : Byte := BitVec.ofNat 8 (gfMulGo 8 u.toNat v.toNat 0)

/-- The matrix whose entry [i][j] is `f i j`. -/
def matOf (f : Nat → Nat → Byte) : Bytes := (List.range 64).map fun p => f (p / 8) (p % 8)

/-- Entry [i][j] (R901). -/
def matAt (m : Bytes) (i j : Nat) : Byte := m.getD (8 * i + j) 0

/-- The non-linear layer γ (R905). -/
def whirlGamma (m : Bytes) : Bytes := m.map fun b => whirlS.getD b.toNat 0

/-- The cyclical permutation π: column j moves down by j rows (R905). -/
def whirlPi (m : Bytes) : Bytes := matOf fun i j => matAt m ((i + 8 - j) % 8) j

/-- The first row c of the circulant matrix (R905). -/
def whirlC : Bytes := [0x01, 0x01, 0x04, 0x01, 0x08, 0x05, 0x02, 0x09]

/-- The linear diffusion θ (R905). -/
def whirlTheta (m : Bytes) : Bytes :=
  matOf fun i j =>
    (List.range 8).foldl (fun acc k => acc ^^^ gfMul (matAt m i k) (whirlC.getD ((j + 8 - k) % 8) 0)) 0

/-- The key addition σ[K] (R905); also the ⊕ of R908. -/
def whirlXor (k m : Bytes) : Bytes := List.zipWith (· ^^^ ·) m k

/-- The round function ρ[K] = σ[K] ∘ θ ∘ π ∘ γ (R905). -/
def whirlRho (k m : Bytes) : Bytes := whirlXor k (whirlTheta (whirlPi (whirlGamma m)))

/-- The round constant c^r: row 0 is S[8(r-1) .. 8(r-1)+7], the other rows are zero (R906). -/
def whirlConst (r : Nat) : Bytes := matOf fun i j => if i = 0 then whirlS.getD (8 * (r - 1) + j) 0 else 0

/-- Round r of the block cipher: the key, then the state under the new key (R907). -/
def whirlRound (p : Bytes × Bytes) (r : Nat) : Bytes × Bytes :=
  let k := whirlRho (whirlConst r) p.1
  (k, whirlRho k p.2)

/-- The block cipher W(K, m) (R907). -/
def whirlCipher (k m : Bytes) : Bytes :=
  ([1, 2, 3, 4, 5, 6, 7, 8, 9, 10].foldl whirlRound (k, whirlXor k m)).2

/-- `Compress_WHIRLPOOL(H, X)` (R908). -/
def compressWhirl (h x : Bytes) : Bytes := whirlXor x (whirlXor h (whirlCipher h x))

/-- The row WHIRLPOOL of R510; the IV is the zero matrix (R909), the output the matrix row-major (R901). -/
def whirlAlg : MdAlg Bytes :=
  { blockBytes := 64, lenBytes := 32, lenBig := true, pad := 0x80
    iv := List.replicate 64 0, compress := compressWhirl, out := id }

end Sys2Proof.Machine
end

