-- ==== Sys2Proof/Machine/Digest.lean ====
section
/-! DEFINITION. The dispatch from an algorithm identifier to its engine (spec/41_primitive_framework.md R530) and the digest of a whole
message (spec/00_scope.md R16). -/

namespace Sys2Proof.Machine

/-- The rows of R510 with 32-bit chaining words. An algorithm of another kind has no context of this kind (R132), so its row is
never used. -/
def md32Of : Alg → MdAlg (List W32)
  | .md5 => md5Alg
  | .sha1 => sha1Alg
  | .sha224 => sha224Alg
  | .sha256 => sha256Alg
  | .ripemd128 => rip128Alg
  | .ripemd160 => rip160Alg
  | .ripemd256 => rip256Alg
  | .ripemd320 => rip320Alg
  | .md4 | .crc32 | .sha384 | .sha512 | .whirlpool | .tiger | .ed2k | .tth | .aich => md4Alg

/-- The rows of R510 with 64-bit chaining words; as for `md32Of`. -/
def md64Of : Alg → MdAlg (List W64)
  | .sha384 => sha384Alg
  | .tiger => tigerAlg
  | .sha512 | .crc32 | .md4 | .md5 | .sha1 | .sha224 | .sha256 | .ripemd128 | .ripemd160 | .ripemd256 | .ripemd320
  | .whirlpool | .ed2k | .tth | .aich => sha512Alg

/-- `Init_a(size)` (R530); only AICH reads the size. -/
def initCtx (a : Alg) (size : W64) : Ctx :=
  match a with
  | .crc32 => .crc crcInit
  | .md4 | .md5 | .sha1 | .sha224 | .sha256 | .ripemd128 | .ripemd160 | .ripemd256 | .ripemd320 => .md32 (mdInit (md32Of a))
  | .sha384 | .sha512 | .tiger => .md64 (mdInit (md64Of a))
  | .whirlpool => .mat (mdInit whirlAlg)
  | .ed2k => .ed2k ed2kInit
  | .tth => .tth tthInit
  | .aich => .aich (aichInit size)

/-- `Absorb_a(ctx, s)` (R530). -/
def absorbCtx (a : Alg) (c : Ctx) (m : Bytes) : Ctx :=
  match c with
  | .crc r => .crc (crcAbsorb r m)
  | .md32 c => .md32 (mdAbsorb (md32Of a) c m)
  | .md64 c => .md64 (mdAbsorb (md64Of a) c m)
  | .mat c => .mat (mdAbsorb whirlAlg c m)
  | .ed2k c => .ed2k (ed2kAbsorb c m)
  | .tth c => .tth (tthAbsorb c m)
  | .aich c => .aich (aichAbsorb c m)

/-- `Final_a(ctx)` (R530): the digest; the context is not changed (R16). -/
def finalCtx (a : Alg) (c : Ctx) : Bytes :=
  match c with
  | .crc r => crcFinal r
  | .md32 c => mdFinal (md32Of a) c
  | .md64 c => mdFinal (md64Of a) c
  | .mat c => mdFinal whirlAlg c
  | .ed2k c => ed2kFinal c
  | .tth c => tthFinal c
  | .aich c => aichFinal c

/-- `Digest_a(m, size)` (R16). -/
def digest (a : Alg) (m : Bytes) (size : W64) : Bytes := finalCtx a (absorbCtx a (initCtx a size) m)

end Sys2Proof.Machine
end

