-- ==== Sys2Proof/Machine/Flags.lean ====
section
/-! DEFINITION. The flag computations: the completion codes (spec/60_exceptions.md R1401), what a completion does to STATUS (R1402), the
W1C clearing of STATUS and its word (spec/10_state.md R106, R107), and the interrupt line (R1420). -/

namespace Sys2Proof.Machine

/-- The byte of a completion code (R1401). -/
def codeByte : Code → Byte
  | .ok => 0x00
  | .notFound => 0x01
  | .ignored => 0x02
  | .badOpcode => 0x10
  | .badField => 0x11
  | .badSid => 0x12
  | .badAlg => 0x13
  | .badEnc => 0x14
  | .badRange => 0x15
  | .notEnabled => 0x20
  | .noSize => 0x21
  | .sizeMismatch => 0x22
  | .finalized => 0x23
  | .lengthOverflow => 0x24
  | .parse => 0x30

/-- A code is an error when it is 0x10 or above (R1400). -/
def codeIsError (c : Code) : Bool := decide (0x10 ≤ (codeByte c).toNat)

/-- STATUS when a command completes with `c` (R1402): CODE replaced, DONE set, ERR set on an error and never cleared, BUSY
cleared; OVR and AERR kept. -/
def statusComplete (st : Status) (c : Code) : Status :=
  { st with busy := false, done := true, err := st.err || codeIsError c, code := c }

/-- STATUS when a command is accepted (R105). -/
def statusAccept (st : Status) : Status := { st with busy := true }

/-- STATUS when a host write is dropped because BUSY = 1 (R1510). -/
def statusOverrun (st : Status) : Status := { st with ovr := true }

/-- STATUS when the window does not admit an access (R205). -/
def statusAccessError (st : Status) : Status := { st with aerr := true }

/-- STATUS after a host write of `v` to it: DONE, ERR, OVR and AERR are cleared where `v` has a 1, the other fields ignore
the write (R106, R107). -/
def statusWrite (st : Status) (v : W32) : Status :=
  { st with
    done := st.done && !v.getLsbD 1
    err := st.err && !v.getLsbD 2
    ovr := st.ovr && !v.getLsbD 3
    aerr := st.aerr && !v.getLsbD 4 }

/-- The word a read of STATUS assembles from the flags and a code byte: AERR, OVR, ERR, DONE, BUSY in bits 4..0, CODE in bits 15:8, the
reserved bits 0 (R106). -/
def statusWordWith (st : Status) (code : Byte) : W32 :=
  (0#16 ++ code ++ 0#3 ++ BitVec.ofBool st.aerr ++ BitVec.ofBool st.ovr ++ BitVec.ofBool st.err ++
    BitVec.ofBool st.done ++ BitVec.ofBool st.busy : BitVec 32)

/-- The word of STATUS (R106). -/
def statusWord (st : Status) : W32 := statusWordWith st (codeByte st.code)

/-- The interrupt line (R1420): level-sensitive, a function of STATUS and IRQEN as they stand. -/
def irqLine (s : State) : Bool := (s.status.done && s.doneIe) || (s.status.err && s.errIe)

/-- The platform's interrupt number `line` as QFH-CORE drives it: IRQ is wired to QFH_IRQ (R1420, D17). -/
def irqAt (s : State) (line : Nat) : Bool := decide (line = Config.qfhIrq) && irqLine s

end Sys2Proof.Machine
end

