-- ==== Sys2Proof/Machine/Ops.lean ====
section
/-! DEFINITION. The shared operations of the commands: completing and raising (spec/60_exceptions.md R1402), the slots (spec/10_state.md
R116), the scratch context, reset (spec/70_reset_and_hazards.md R1500, R1502). -/

namespace Sys2Proof.Machine

/-! ## Completion (R1200, R1402) -/

/-- The values a command names for RES0..RES3; 0 where it names none (R109). -/
structure Results where
  r0 : W32 := 0
  r1 : W32 := 0
  r2 : W32 := 0
  r3 : W32 := 0
  deriving DecidableEq, Repr

/-- `Complete(code, values)` with the output bytes `out` (R1402, R109, R110, R115): RES0..RES3 and OLEN are written, OBUF holds exactly
the output and no other defined byte, and STATUS takes the code. A command makes at most two drawings of free values, one for
each of its operands, and the count moves past them. -/
def State.complete (s : State) (c : Code) (r : Results := {}) (out : Bytes := []) : State :=
  { s with
    status := statusComplete s.status c
    res0 := r.r0, res1 := r.r1, res2 := r.r2, res3 := r.r3
    olen := BitVec.ofNat 16 out.length
    obuf := memOf 0 out
    draws := s.draws + 2 }

/-- `raise code(info)` (R15, R1402, R1404): the command ends with the code, no output, and no slot changed. This is QFH-CORE's
whole taking of an exception: nothing is saved, no mode changes and there is no handler (R1430), so there is no return either
(R1431). -/
def State.raise (s : State) (c : Code) (info : Results := {}) : State := s.complete c info []

/-- A command that ends with `raise`. -/
def raised (s : State) (c : Code) (info : Results := {}) : Host.Outcome State Fault Refusal := .next (s.raise c info)

/-- A command that writes the bytes `out` to OBUF and reports their number in RES0: the end of every command with a byte output. -/
def State.output (s : State) (out : Bytes) : State := s.complete .ok { r0 := BitVec.ofNat 32 out.length } out

/-- The answer of a search (R1401): the identifier in RES0 with OK, or 0xFFFFFFFF with NOT_FOUND. -/
def State.found (s : State) : Option Nat → State
  | some n => s.complete .ok { r0 := BitVec.ofNat 32 n }
  | none => s.complete .notFound { r0 := 0xFFFFFFFF }

/-! ## Slots (R116) -/

/-- S[sid]. Every command checks sid < NSESS first, and the state holds NSESS slots; the empty slot stands for any other number (DESIGN
CHOICE, notes/assumptions/9.md). -/
def State.slot (s : State) (sid : Nat) : Slot := s.slots.getD sid emptySlot

/-- S[sid] := sl. -/
def State.setSlot (s : State) (sid : Nat) (sl : Slot) : State := { s with slots := s.slots.set sid sl }

/-- EN[a]. -/
def slotEn (sl : Slot) (a : Alg) : Bool := sl.en.getLsbD (algId a)

/-- CTX[a]. -/
def slotCtx (sl : Slot) (a : Alg) : Option Ctx := sl.ctx.getD (algId a) none

/-- The slot S_NEW gives (R1203): the algorithms of the mask enabled with new contexts, the flags cleared, the size kept only when
it is valid. -/
def newSlot (mask : BitVec 17) (hs : Bool) (size : W64) : Slot :=
  let sz := if hs then size else 0
  { en := mask, dirty := false, final := false, hasSize := hs, size := sz, total := 0
    ctx := allAlgs.map fun a => if mask.getLsbD (algId a) then some (initCtx a sz) else none }

/-- The mask `1 << alg` of D_INIT (R1220). -/
def oneAlg (a : Alg) : BitVec 17 := 1#17 <<< algId a

/-- EN[a] := 1 with a new context (R1206). -/
def slotAdd (sl : Slot) (a : Alg) : Slot :=
  { sl with en := sl.en ||| oneAlg a, ctx := sl.ctx.set (algId a) (some (initCtx a sl.size)) }

/-- EN[a] := 0, the context discarded (R1208). -/
def slotRemove (sl : Slot) (a : Alg) : Slot :=
  { sl with en := sl.en &&& ~~~oneAlg a, ctx := sl.ctx.set (algId a) none }

/-- Every enabled context absorbs the same bytes, TOTAL counts them, and the slot is dirty (R1210, R1211). -/
def slotUpdate (sl : Slot) (m : Bytes) : Slot :=
  { sl with
    dirty := true
    total := sl.total + BitVec.ofNat 64 m.length
    ctx := allAlgs.map fun a =>
      if slotEn sl a then (slotCtx sl a).map fun c => absorbCtx a c m else slotCtx sl a }

/-- `Final_alg(CTX[alg])` (R1213); the command has checked that the algorithm is enabled, and then the context is present (R116; the empty
string where it is not is a DESIGN CHOICE, notes/assumptions/9.md). -/
def slotDigest (sl : Slot) (a : Alg) : Bytes := ((slotCtx sl a).map (finalCtx a)).getD []

/-! ## Reset (R1500, R1502) -/

/-- Hardware reset: every piece of the machine's state to its reset value (R1500). The parameters are fixed; what the host does
next, the count of drawings and the value last returned are the environment's, not the machine's. -/
def State.hardReset (s : State) : State :=
  { resetWith s.params with hostQueue := s.hostQueue, draws := s.draws, rdata := s.rdata }

/-- Soft reset: hardware reset, but IBUF keeps its contents; a running command is abandoned with none of its effects (R1502). -/
def State.softReset (s : State) : State := { s.hardReset with ibuf := s.ibuf }

/-! ## Detection of an algorithm (R1305) -/

/-- The algorithms whose digest length is `n`, in identifier order (R1305, R1307). -/
def candidates (n : Nat) : List Alg := allAlgs.filter fun a => digestLen a == n

/-- `DetectAlg(m, d)` (R1305); AICH takes the message length as its size (D37). -/
def detectAlg (m d : Bytes) : Option Alg :=
  (candidates d.length).find? fun a => digest a m (BitVec.ofNat 64 m.length) == d

/-- SCR after a detection: the context of the last trial, initialised for the message; unchanged when nothing is tried (R141, R1306;
DEDUCED, notes/assumptions/10.md). -/
def detectScratch (s : State) (m d : Bytes) : Option Ctx :=
  match (detectAlg m d).or (candidates d.length).getLast? with
  | some a => some (initCtx a (BitVec.ofNat 64 m.length))
  | none => s.scr

end Sys2Proof.Machine
end

