-- ==== Sys2Proof/Machine/CodecCommands.lean ====
section
/-! DEFINITION. The codec's commands: ENCODE, DECODE, DETECT_ENC (spec/40_codec.md R420 to R424). Checks in the order of R1410. -/

namespace Sys2Proof.Machine

/-- ENCODE (R420). The second range check is the rule's own; with the parameters of R9 it never fails (R10). -/
def execEncode (enc : Nat) (s : State) : Host.Outcome State Fault Refusal :=
  match encOf enc with
  | none => raised s .badEnc
  | some e =>
    if !operandOk s s.arg1 s.arg0 then raised s .badRange
    else
      let t := encodeText e (operandBytes s s.draws s.arg1 s.arg0)
      if s.params.obufSize < t.length then raised s .badRange else .next (s.output t)

/-- DECODE (R422). -/
def execDecode (enc : Nat) (s : State) : Host.Outcome State Fault Refusal :=
  match encOf enc with
  | none => raised s .badEnc
  | some e =>
    if !operandOk s s.arg1 s.arg0 then raised s .badRange
    else match decodeText e (operandBytes s s.draws s.arg1 s.arg0) with
      | .parse pos => raised s .parse { r1 := BitVec.ofNat 32 pos }
      | .ok out used =>
        .next (s.complete .ok { r0 := BitVec.ofNat 32 out.length, r1 := BitVec.ofNat 32 used } out)

/-- DETECT_ENC (R424). -/
def execDetectEnc (s : State) : Host.Outcome State Fault Refusal :=
  if !operandOk s s.arg1 s.arg0 then raised s .badRange
  else .next (s.found ((detectEnc (operandBytes s s.draws s.arg1 s.arg0)).map encId))

end Sys2Proof.Machine
end

