-- ==== Sys2Proof/Machine/RegistryCommands.lean ====
section
/-! DEFINITION. The registry's commands: REG_SIZE, REG_NAME, REG_FROM_NAME, DETECT_ALG (spec/49_registry.md R1300 to R1307). Checks in
the order of R1410. -/

namespace Sys2Proof.Machine

/-- REG_SIZE (R1302). -/
def execRegSize (alg : Nat) (s : State) : Host.Outcome State Fault Refusal :=
  match algOf alg with
  | none => raised s .badAlg
  | some a => .next (s.complete .ok { r0 := BitVec.ofNat 32 (digestLen a) })

/-- REG_NAME (R1303). -/
def execRegName (alg : Nat) (s : State) : Host.Outcome State Fault Refusal :=
  match algOf alg with
  | none => raised s .badAlg
  | some a => .next (s.output (algName a))

/-- REG_FROM_NAME (R1304): the algorithm whose canonical name is exactly the operand. -/
def execRegFromName (s : State) : Host.Outcome State Fault Refusal :=
  if !operandOk s s.arg1 s.arg0 then raised s .badRange
  else
    let t := operandBytes s s.draws s.arg1 s.arg0
    .next (s.found ((allAlgs.find? fun a => algName a == t).map algId))

/-- DETECT_ALG (R1306): the message is (ARG1, ARG0), the candidate digest (ARG3, ARG2). Unwritten bytes of the two operands are of two
drawings (DESIGN CHOICE, notes/assumptions/13.md). -/
def execDetectAlg (s : State) : Host.Outcome State Fault Refusal :=
  if !(operandOk s s.arg1 s.arg0 && operandOk s s.arg3 s.arg2) then raised s .badRange
  else
    let m := operandBytes s s.draws s.arg1 s.arg0
    let d := operandBytes s (s.draws + 1) s.arg3 s.arg2
    .next ({ s with scr := detectScratch s m d }.found ((detectAlg m d).map algId))

end Sys2Proof.Machine
end

