-- ==== Sys2Proof/Machine/Session.lean ====
section
/-! DEFINITION. The session controller's commands: NOP, S_NEW, S_ADD, S_REMOVE, S_UPDATE, S_RESULT, S_QUERY, D_INIT, D_FINAL, D_HASH
(spec/48_session.md). Each makes its checks in the order of R1410 and R1411, and the first that fails ends the command; the
opcode and field checks (steps 1 and 2) are made by `decode`. -/

namespace Sys2Proof.Machine

/-- NOP (R1201). -/
def execNop (s : State) : Host.Outcome State Fault Refusal := .next (s.complete .ok)

/-- S_NEW (R1203). -/
def execSNew (sid : Nat) (s : State) : Host.Outcome State Fault Refusal :=
  if !sidOk s sid then raised s .badSid
  else if !(maskOk s && flagsOk s) then raised s .badField
  else if (argMask s).getLsbD 16 && !sizeValid s then raised s .noSize
  else .next ((s.setSlot sid (newSlot (argMask s) (sizeValid s) (argSize s))).complete .ok)

/-- S_ADD (R1206). -/
def execSAdd (alg sid : Nat) (s : State) : Host.Outcome State Fault Refusal :=
  if !sidOk s sid then raised s .badSid
  else match algOf alg with
    | none => raised s .badAlg
    | some a =>
      if (s.slot sid).final then raised s .finalized
      else if (s.slot sid).dirty then .next (s.complete .ignored)
      else if slotEn (s.slot sid) a then .next (s.complete .ok)
      else if a = .aich && !(s.slot sid).hasSize then raised s .noSize
      else .next ((s.setSlot sid (slotAdd (s.slot sid) a)).complete .ok)

/-- S_REMOVE (R1208). -/
def execSRemove (alg sid : Nat) (s : State) : Host.Outcome State Fault Refusal :=
  if !sidOk s sid then raised s .badSid
  else match algOf alg with
    | none => raised s .badAlg
    | some a =>
      if (s.slot sid).final then raised s .finalized
      else if (s.slot sid).dirty then .next (s.complete .ignored)
      else .next ((s.setSlot sid (slotRemove (s.slot sid) a)).complete .ok)

/-- S_UPDATE (R1210). -/
def execSUpdate (sid : Nat) (s : State) : Host.Outcome State Fault Refusal :=
  if !sidOk s sid then raised s .badSid
  else if !operandOk s s.arg1 s.arg0 then raised s .badRange
  else if (s.slot sid).final then raised s .finalized
  else if 2 ^ 64 - 1 < (s.slot sid).total.toNat + s.arg0.toNat then raised s .lengthOverflow
  else if slotEn (s.slot sid) .aich && decide ((s.slot sid).size.toNat < (s.slot sid).total.toNat + s.arg0.toNat) then
    raised s .sizeMismatch
  else
    let sl := slotUpdate (s.slot sid) (operandBytes s s.draws s.arg1 s.arg0)
    .next ((s.setSlot sid sl).complete .ok { r0 := sl.total.extractLsb' 0 32, r1 := sl.total.extractLsb' 32 32 })

/-- S_RESULT (R1213). -/
def execSResult (alg sid : Nat) (s : State) : Host.Outcome State Fault Refusal :=
  if !sidOk s sid then raised s .badSid
  else match algOf alg with
    | none => raised s .badAlg
    | some a =>
      if !slotEn (s.slot sid) a then raised s .notEnabled
      else if a = .aich && (s.slot sid).total != (s.slot sid).size then raised s .sizeMismatch
      else .next (s.output (slotDigest (s.slot sid) a))

/-- RES1 of S_QUERY: DIRTY, FINAL and HAS_SIZE in bits 0, 1, 2 (R1215). -/
def queryFlags (sl : Slot) : W32 :=
  (BitVec.ofBool sl.dirty).zeroExtend 32 ||| ((BitVec.ofBool sl.final).zeroExtend 32 <<< 1) |||
    ((BitVec.ofBool sl.hasSize).zeroExtend 32 <<< 2)

/-- S_QUERY (R1215). -/
def execSQuery (sid : Nat) (s : State) : Host.Outcome State Fault Refusal :=
  if !sidOk s sid then raised s .badSid
  else
    let sl := s.slot sid
    .next (s.complete .ok
      { r0 := sl.en.zeroExtend 32, r1 := queryFlags sl
        r2 := sl.total.extractLsb' 0 32, r3 := sl.total.extractLsb' 32 32 })

/-- D_INIT (R1220). -/
def execDInit (alg sid : Nat) (s : State) : Host.Outcome State Fault Refusal :=
  if !sidOk s sid then raised s .badSid
  else match algOf alg with
    | none => raised s .badAlg
    | some a =>
      if !flagsOk s then raised s .badField
      else if a = .aich && !sizeValid s then raised s .noSize
      else .next ((s.setSlot sid (newSlot (oneAlg a) (sizeValid s) (argSize s))).complete .ok)

/-- D_FINAL (R1222). -/
def execDFinal (alg sid : Nat) (s : State) : Host.Outcome State Fault Refusal :=
  if !sidOk s sid then raised s .badSid
  else match algOf alg with
    | none => raised s .badAlg
    | some a =>
      if !slotEn (s.slot sid) a then raised s .notEnabled
      else if a = .aich && (s.slot sid).total != (s.slot sid).size then raised s .sizeMismatch
      else .next ((s.setSlot sid { s.slot sid with final := true }).output (slotDigest (s.slot sid) a))

/-- D_HASH (R1224): SCR is initialised for the algorithm with the operand length as the size, and the digest is taken from it. -/
def execDHash (alg : Nat) (s : State) : Host.Outcome State Fault Refusal :=
  match algOf alg with
  | none => raised s .badAlg
  | some a =>
    if !operandOk s s.arg1 s.arg0 then raised s .badRange
    else
      let size : W64 := s.arg0.zeroExtend 64
      .next ({ s with scr := some (initCtx a size) }.output (digest a (operandBytes s s.draws s.arg1 s.arg0) size))

end Sys2Proof.Machine
end

