-- ==== Sys2Proof/Machine/Dispatch.lean ====
section
/-! DEFINITION. The dispatch of a command to its meaning, one arm per constructor (spec/30_encoding.md R310). -/

namespace Sys2Proof.Machine

def exec (i : Instr) (s : State) : Host.Outcome State Fault Refusal :=
  match i with
  | .nop => Sys2Proof.Machine.execNop s
  | .sNew sid => Sys2Proof.Machine.execSNew sid s
  | .sAdd alg sid => Sys2Proof.Machine.execSAdd alg sid s
  | .sRemove alg sid => Sys2Proof.Machine.execSRemove alg sid s
  | .sUpdate sid => Sys2Proof.Machine.execSUpdate sid s
  | .sResult alg sid => Sys2Proof.Machine.execSResult alg sid s
  | .sQuery sid => Sys2Proof.Machine.execSQuery sid s
  | .dInit alg sid => Sys2Proof.Machine.execDInit alg sid s
  | .dFinal alg sid => Sys2Proof.Machine.execDFinal alg sid s
  | .dHash alg => Sys2Proof.Machine.execDHash alg s
  | .encode enc => Sys2Proof.Machine.execEncode enc s
  | .decode enc => Sys2Proof.Machine.execDecode enc s
  | .detectEnc => Sys2Proof.Machine.execDetectEnc s
  | .regSize alg => Sys2Proof.Machine.execRegSize alg s
  | .regName alg => Sys2Proof.Machine.execRegName alg s
  | .regFromName => Sys2Proof.Machine.execRegFromName s
  | .detectAlg => Sys2Proof.Machine.execDetectAlg s

end Sys2Proof.Machine
end

