-- ==== Sys2Proof/Machine/Command.lean ====
section
/-! DEFINITION. One command of the core, as one atomic step (spec/20_memory.md R211; spec/60_exceptions.md R1410). -/

namespace Sys2Proof.Machine

/-- The code of a word that is no command: steps 1 and 2 of R1410. -/
def decodeErrorCode : DecodeError → Code
  | .badOpcode => .badOpcode
  | .badField => .badField

/-- Run the latched command word PCMD (R105, R140): a command has its meaning; any other word ends with BAD_OPCODE or BAD_FIELD and
no other effect (R312, R313). -/
def runCommand (s : State) : Host.Outcome State Fault Refusal :=
  match Sys2Proof.decode s.pcmd with
  | .ok i => exec i s
  | .error e => raised s (decodeErrorCode e)

/-- PCMD := w with the command running and its time elapsed: what the next step of the core executes. -/
def latch (s : State) (w : W32) : State :=
  { s with pcmd := w, status := statusAccept s.status, wait := 0 }

end Sys2Proof.Machine
end

