-- ==== Sys2Proof/Machine/HostPort.lean ====
section
/-! DEFINITION. The host's side of the register window (spec/10_state.md R101 to R112; spec/20_memory.md R200 to R208, R211;
spec/70_reset_and_hazards.md R1502, R1510, R1511): which accesses are admitted, what they read and what they write. -/

namespace Sys2Proof.Machine

/-! ## The address map (R201, R203, R205) -/

/-- The bytes of an access (R203). -/
def accessBytes : Width → Nat
  | .w8 => 1
  | .w16 => 2
  | .w32 => 4

/-- Where an admitted access goes (R201). -/
inductive Target where
  /-- The register at offset 4·i. -/
  | reg (i : Nat)
  /-- IBUF[k] and the following bytes of the access. -/
  | ibuf (k : Nat)
  /-- OBUF[k] and the following bytes of the access. -/
  | obuf (k : Nat)
  /-- The window does not admit the access (R205). -/
  | none
  deriving DecidableEq, Repr

/-- The target of an access: naturally aligned, 32 bits wide in the register region, and with every byte inside its region (R201,
R203, R205; for an access astride the end of a buffer DEDUCED, notes/assumptions/8.md). That OBUF admits no write is in `hostWrite`. -/
def targetOf (p : Config.Params) (off : Nat) (w : Width) : Target :=
  if off % accessBytes w ≠ 0 then .none
  else if off < 0x40 then (if w = .w32 then .reg (off / 4) else .none)
  else if ibufBase ≤ off ∧ off + accessBytes w ≤ ibufBase + p.ibufSize then .ibuf (off - ibufBase)
  else if obufBase ≤ off ∧ off + accessBytes w ≤ obufBase + p.obufSize then .obuf (off - obufBase)
  else .none

/-- The host address of a window offset (R200). -/
def hostAddress (off : BitVec 14) : Nat := Config.qfhBase + off.toNat

/-- The window offset of a host address; none outside the 16 KiB window (R200). -/
def windowOffset (addr : Nat) : Option (BitVec 14) :=
  if Config.qfhBase ≤ addr ∧ addr < Config.qfhBase + 0x4000 then some (BitVec.ofNat 14 (addr - Config.qfhBase)) else none

/-! ## Reads (R101 to R112, R1511) -/

/-- CAPS (R103). -/
def capsWord (p : Config.Params) : W32 :=
  (0#8 ++ BitVec.ofNat 8 Config.nenc ++ BitVec.ofNat 8 Config.nalg ++ BitVec.ofNat 8 p.nsess : BitVec 32)

/-- BUFSZ (R104). -/
def bufszWord (p : Config.Params) : W32 := BitVec.ofNat 16 p.obufSize ++ BitVec.ofNat 16 p.ibufSize

/-- A result register's value: what it holds, or a free word while BUSY = 1 (R1511). -/
def resultValue (s : State) (draw : Nat) (v : W32) : W32 := if s.status.busy then Config.freeWord draw else v

/-- The word of STATUS as the host reads it: while BUSY = 1 the CODE field is free (R1511), the reserved bits are not (DEDUCED,
notes/assumptions/6.md). -/
def statusRead (s : State) (draw : Nat) : W32 :=
  if s.status.busy then statusWordWith s.status ((Config.freeWord draw).setWidth 8) else statusWord s.status

/-- The value of the register at offset 4·i (R101). -/
def regValue (s : State) (draw : Nat) (i : Nat) : W32 :=
  match i with
  | 0 => 0x51464831
  | 1 => capsWord s.params
  | 2 => bufszWord s.params
  | 3 => 0
  | 4 => statusRead s draw
  | 5 => s.arg0
  | 6 => s.arg1
  | 7 => s.arg2
  | 8 => s.arg3
  | 9 => resultValue s draw s.res0
  | 10 => resultValue s draw s.res1
  | 11 => resultValue s draw s.res2
  | 12 => resultValue s draw s.res3
  | 13 => (if s.status.busy then (Config.freeWord draw).setWidth 16 else s.olen).zeroExtend 32
  | 14 => (BitVec.ofBool s.errIe ++ BitVec.ofBool s.doneIe).zeroExtend 32
  | _ => 0

/-- The little-endian word of the bytes of an access (R204). -/
def assembleBytes (byteAt : Nat → Byte) (k : Nat) (w : Width) : W32 :=
  BitVec.ofNat 32 (leNat ((List.range (accessBytes w)).map fun i => byteAt (k + i)))

/-- What a read returns (R204, R205, R1511): 0 for an access the window does not admit. -/
def readValue (s : State) (off : Nat) (w : Width) : W32 :=
  match targetOf s.params off w with
  | .reg i => regValue s s.draws i
  | .ibuf k => assembleBytes (ibufByte s s.draws) k w
  | .obuf k =>
    if s.status.busy then BitVec.ofNat 32 ((Config.freeWord s.draws).toNat % 2 ^ (8 * accessBytes w))
    else assembleBytes (obufByte s s.draws) k w
  | .none => 0

/-- STATUS with AERR set (R205). -/
def State.accessError (s : State) : State := { s with status := statusAccessError s.status }

/-- STATUS with OVR set: the write is dropped (R1510). -/
def State.overrun (s : State) : State := { s with status := statusOverrun s.status }

/-- A host read (R205, R206): it returns a value, sets AERR when it is not admitted, and changes nothing else of the machine. -/
def hostRead (s : State) (off : Nat) (w : Width) : State :=
  let v := readValue s off w
  let s' := if targetOf s.params off w = .none then s.accessError else s
  { s' with rdata := v, draws := s.draws + 1 }

/-! ## Writes (R101 to R112, R1510) -/

/-- A write that is dropped with OVR while BUSY = 1 (R1510), else performed. -/
def unlessBusy (s t : State) : State := if s.status.busy then s.overrun else t

/-- The acceptance of a command word (R105): PCMD latched, BUSY set, and a finite time drawn until it completes (R1513). -/
def State.accept (s : State) (v : W32) : State :=
  { s with pcmd := v, status := statusAccept s.status, wait := Config.latency s.draws, draws := s.draws + 1 }

/-- A 32-bit write to the register at offset 4·i (R101, R206); the other registers ignore writes. -/
def writeReg (s : State) (i : Nat) (v : W32) : State :=
  match i with
  | 3 => unlessBusy s (s.accept v)
  | 4 => { s with status := statusWrite s.status v }
  | 5 => unlessBusy s { s with arg0 := v }
  | 6 => unlessBusy s { s with arg1 := v }
  | 7 => unlessBusy s { s with arg2 := v }
  | 8 => unlessBusy s { s with arg3 := v }
  | 14 => { s with doneIe := v.getLsbD 0, errIe := v.getLsbD 1 }
  | 15 => if v.getLsbD 0 then s.softReset else s
  | _ => s

/-- A host write (R203 to R207, R1510). One that the window does not admit sets AERR, whether BUSY is 1 or not (DEDUCED,
notes/assumptions/7.md). -/
def hostWrite (s : State) (off : Nat) (w : Width) (v : W32) : State :=
  match targetOf s.params off w with
  | .reg i => writeReg s i v
  | .ibuf k => unlessBusy s { s with ibuf := memStore s.ibuf k (toLeN v.toNat (accessBytes w)) }
  | .obuf _ => s.accessError
  | .none => s.accessError

/-- What one event of the host does to the machine. WAIT is a read of STATUS (R316). -/
def hostEvent (s : State) : HostEvent → State
  | .idle => s
  | .read off w => hostRead s off.toNat w
  | .write off w v => hostWrite s off.toNat w v
  | .waitIdle => hostRead s 0x010 .w32
  | .hardReset => s.hardReset

/-- The events left after the first one: WAIT stays until it has read BUSY as 0 (R316). -/
def eventsAfter (busy : Bool) (e : HostEvent) (rest : List HostEvent) : List HostEvent :=
  if e = .waitIdle ∧ busy then e :: rest else rest

/-- One step of the host: its next event, in issue order (R211); with no event left it issues nothing. -/
def hostStep (s : State) : State :=
  match s.hostQueue with
  | [] => s
  | e :: rest => hostEvent { s with hostQueue := eventsAfter s.status.busy e rest } e

end Sys2Proof.Machine
end

