-- ==== Sys2Proof/Machine/Step.lean ====
section
/-! DEFINITION. One step of QFH-CORE: either the core completes its command, as one atomic step, or the host performs its next
access (spec/20_memory.md R211). -/

namespace Sys2Proof.Machine

/-- One step. While BUSY = 1 the host goes on for the command's latency, then the command completes (R1513); while BUSY = 0 the
core is idle (R1445) and only the host acts. -/
def step (s : State) : Host.Outcome State Fault Refusal :=
  if s.status.busy then
    if s.wait = 0 then runCommand s
    else .next (hostStep { s with wait := s.wait - 1 })
  else .next (hostStep s)

/-- The state whose next step runs the command word `w` of `nbits` bits: QFH-CORE fetches nothing (R113), its next command is the one
latched in PCMD while BUSY = 1 (R140). -/
def State.withFetchWord (s : State) (nbits w : Nat) : State := latch s (BitVec.ofNat 32 (w % 2 ^ nbits))

end Sys2Proof.Machine
end

