-- ==== Sys2Proof/Machine/Assembler.lean ====
section
/-! DEFINITION. The host-side assembler: a line and the pseudo-instructions, as the host accesses they expand to (spec/30_encoding.md
R315 to R317). A line is given by its parts; its text form is not modelled (notes/assumptions/15.md). -/

namespace Sys2Proof.Machine

/-- The keys of a line (R315). -/
inductive AsmKey where
  | len | mask | off | flags | size | mlen | moff | dlen | doff
  deriving DecidableEq, Repr

/-- A 32-bit write to the register at offset `off`. -/
def regWrite (off : Nat) (v : W32) : HostEvent := .write (BitVec.ofNat 14 off) .w32 v

/-- The ARG writes a key stands for (R315): `size` sets ARG2 and ARG3. -/
def keyWrites (k : AsmKey) (v : Nat) : List HostEvent :=
  match k with
  | .len | .mask | .mlen => [regWrite 0x014 (BitVec.ofNat 32 v)]
  | .off | .flags | .moff => [regWrite 0x018 (BitVec.ofNat 32 v)]
  | .size => [regWrite 0x01C (BitVec.ofNat 32 v), regWrite 0x020 (BitVec.ofNat 32 (v >>> 32))]
  | .dlen => [regWrite 0x01C (BitVec.ofNat 32 v)]
  | .doff => [regWrite 0x020 (BitVec.ofNat 32 v)]

/-- A line: its ARG writes in key order, the CMD write of the assembled word, then WAIT (R315, R317). -/
def asmLine (i : Instr) (keys : List (AsmKey × Nat)) : List HostEvent :=
  keys.flatMap (fun kv => keyWrites kv.1 kv.2) ++ [regWrite 0x00C (Sys2Proof.encode i), .waitIdle]

/-- `PUT off, bytes`: 8-bit writes to IBUF[off], IBUF[off+1], ... (R316). -/
def asmPut (off : Nat) (bs : Bytes) : List HostEvent :=
  bs.mapIdx fun i b => .write (BitVec.ofNat 14 (ibufBase + off + i)) .w8 (b.zeroExtend 32)

/-- `GET n`: 8-bit reads of OBUF[0..n) (R316). -/
def asmGet (n : Nat) : List HostEvent :=
  (List.range n).map fun i => .read (BitVec.ofNat 14 (obufBase + i)) .w8

/-- `CLR`: 0x1E to STATUS (R316). -/
def asmClr : List HostEvent := [regWrite 0x010 0x1E]

/-- The mask of a set of algorithms: the bits `1 << A` (R316). -/
def maskOf (as : List Alg) : Nat := as.foldl (fun m a => m ||| 1 <<< algId a) 0

/-- `SESSION sN, A B ...`, with the size where one is given (R316). -/
def asmSession (sid : Nat) (as : List Alg) (size : Option Nat) : List HostEvent :=
  match size with
  | none => asmLine (.sNew sid) [(.mask, maskOf as), (.flags, 0)]
  | some v => asmLine (.sNew sid) [(.mask, maskOf as), (.flags, 1), (.size, v)]

/-- `HASH A, off=O, len=L` (R316). -/
def asmHash (a : Alg) (off len : Nat) : List HostEvent := asmLine (.dHash (algId a)) [(.len, len), (.off, off)]

end Sys2Proof.Machine
end

