-- ==== Sys2Proof/Safety.lean ====
section
/-! DEFINITION. The terms in which claims about QFH-CORE are stated: what a completed command leaves (R1402) and what it keeps, when
an access is dropped or refused, and the invariants of memory, slots and output. -/

namespace Sys2Proof.Safety

open Sys2Proof.Machine

/-! ## What a completed command leaves and keeps -/

/-- The registers and OBUF that every completed command writes (R1402, R109, R110, R115), with code `c`, results `r` and output
`out`: at and beyond OLEN every byte of OBUF is a free byte. -/
def Completed (s t : State) (c : Code) (r : Results) (out : Bytes) : Prop :=
  t.status = { s.status with busy := false, done := true, err := s.status.err || codeIsError c, code := c } ∧
  t.res0 = r.r0 ∧ t.res1 = r.r1 ∧ t.res2 = r.r2 ∧ t.res3 = r.r3 ∧ t.olen.toNat = out.length ∧
  ∀ draw k, obufByte t draw k = out.getD k (Config.freeByte draw (obufBase + k))

/-- What no command writes: the parameters, ARG0..ARG3 (R108), IRQEN, PCMD, every byte of IBUF (R114), and the model's own
fields but the count of drawings. -/
def Kept (s t : State) : Prop :=
  t.params = s.params ∧ t.arg0 = s.arg0 ∧ t.arg1 = s.arg1 ∧ t.arg2 = s.arg2 ∧ t.arg3 = s.arg3 ∧
  t.doneIe = s.doneIe ∧ t.errIe = s.errIe ∧ t.pcmd = s.pcmd ∧
  (∀ draw k, ibufByte t draw k = ibufByte s draw k) ∧
  t.hostQueue = s.hostQueue ∧ t.rdata = s.rdata ∧ t.wait = s.wait

/-- No slot but `sid` changes, and no slot appears or goes (R1230). -/
def OtherSlotsKept (s t : State) (sid : Nat) : Prop :=
  t.slots.length = s.slots.length ∧ ∀ j, j ≠ sid → t.slot j = s.slot j

/-- The outcome `o` of a command run in `s`: it completes with code `c`, results `r` and output `out`, keeping what no command
writes, every slot and SCR. -/
def CompletesKeeping (o : Host.Outcome State Fault Refusal) (s : State) (c : Code) (r : Results) (out : Bytes) : Prop :=
  ∃ t, o = .next t ∧ Completed s t c r out ∧ Kept s t ∧ t.slots = s.slots ∧ t.scr = s.scr

/-- The outcome `o` of a command run in `s`: it completes with code OK, results `r` and output `out`, slot `sid` becomes one with the
property `P`, and it keeps what no command writes, every other slot and SCR. -/
def CompletesSettingSlot (o : Host.Outcome State Fault Refusal) (s : State) (r : Results) (out : Bytes) (sid : Nat)
    (P : Slot → Prop) : Prop :=
  ∃ t, o = .next t ∧ Completed s t .ok r out ∧ Kept s t ∧ OtherSlotsKept s t sid ∧ P (t.slot sid) ∧ t.scr = s.scr

/-- The outcome `o` of a command that uses the scratch context (R141), run in `s`: it completes with code `c`, results `r` and output
`out`, keeping what no command writes and every slot. -/
def CompletesUsingScratch (o : Host.Outcome State Fault Refusal) (s : State) (c : Code) (r : Results) (out : Bytes) : Prop :=
  ∃ t, o = .next t ∧ Completed s t c r out ∧ Kept s t ∧ t.slots = s.slots

/-- The step completed a command: it was running, its time had elapsed, and the step gave a next state. -/
def CompletionStep (s t : State) : Prop := s.status.busy = true ∧ s.wait = 0 ∧ step s = .next t

/-! ## What the commands do to a slot (R1203 to R1222) -/

/-- The slot S_NEW gives for a mask, SIZE_VALID and a size (R1203). -/
def IsNewSlot (mask : BitVec 17) (hs : Bool) (size : W64) (sl : Slot) : Prop :=
  sl.en = mask ∧ sl.dirty = false ∧ sl.final = false ∧ sl.hasSize = hs ∧ sl.size = (if hs then size else 0) ∧
  sl.total = 0 ∧ sl.ctx.length = Config.nalg ∧
  ∀ a, slotCtx sl a = if mask.getLsbD (algId a) then some (initCtx a sl.size) else none

/-- The two slots have the same flags, size and total. -/
def SameBookkeeping (sl sl' : Slot) : Prop :=
  sl'.dirty = sl.dirty ∧ sl'.final = sl.final ∧ sl'.hasSize = sl.hasSize ∧ sl'.size = sl.size ∧ sl'.total = sl.total

/-- `sl'` is `sl` with the algorithm numbered `alg` enabled, its context new (R1206). -/
def IsAdded (sl : Slot) (alg : Nat) (sl' : Slot) : Prop :=
  SameBookkeeping sl sl' ∧ (∀ b, slotEn sl' b = (slotEn sl b || decide (algId b = alg))) ∧
  ∀ b, slotCtx sl' b = if algId b = alg then some (initCtx b sl.size) else slotCtx sl b

/-- `sl'` is `sl` with the algorithm numbered `alg` disabled, its context discarded (R1208). -/
def IsRemoved (sl : Slot) (alg : Nat) (sl' : Slot) : Prop :=
  SameBookkeeping sl sl' ∧ (∀ b, slotEn sl' b = (slotEn sl b && !decide (algId b = alg))) ∧
  ∀ b, slotCtx sl' b = if algId b = alg then none else slotCtx sl b

/-- `sl'` is `sl` after every enabled context has absorbed `m` (R1210). -/
def IsFed (sl : Slot) (m : Bytes) (sl' : Slot) : Prop :=
  sl'.en = sl.en ∧ sl'.final = sl.final ∧ sl'.hasSize = sl.hasSize ∧ sl'.size = sl.size ∧ sl'.dirty = true ∧
  sl'.total.toNat = sl.total.toNat + m.length ∧
  ∀ a, slotCtx sl' a = if slotEn sl a then (slotCtx sl a).map (fun c => absorbCtx a c m) else slotCtx sl a

/-- `size` of S_NEW and D_INIT: ARG3 : ARG2 (R303). -/
def sizeOperand (s : State) : W64 := BitVec.ofNat 64 (s.arg3.toNat * 2 ^ 32 + s.arg2.toNat)

/-- The bytes of the operand (ARG1, ARG0) that a command run in `s` reads (R303, R209). -/
def operand (s : State) : Bytes := operandBytes s s.draws s.arg1 s.arg0

/-- The operand (`off`, `len`) runs past IBUF, computed without wrap-around (R303). -/
abbrev RunsPast (s : State) (off len : W32) : Prop := s.params.ibufSize < off.toNat + len.toNat

/-- Every byte of the operand (`off`, `len`) has been written since reset, so that none is a free byte (R114). -/
def OperandWritten (s : State) (off len : W32) : Prop := ∀ i, i < len.toNat → (memGet s.ibuf (off.toNat + i)).isSome = true

/-- A chain of S_UPDATE commands on slot `sid`, each ending with OK, feeds the byte strings `ms` in turn and takes the slot from `sl` to
the last argument; the host may do anything between them (R1212). -/
def Feeds (sid : Nat) : Slot → List Bytes → Slot → Prop
  | sl, [], sl' => sl' = sl
  | sl, m :: ms, sl' =>
    ∃ s t : State, s.slot sid = sl ∧ sid < s.slots.length ∧ operand s = m ∧ exec (.sUpdate sid) s = .next t ∧
      t.status.code = .ok ∧ Feeds sid (t.slot sid) ms sl'

/-! ## The checks of a command (R1410) -/

/-- SEL names an algorithm (R310). -/
def namesAlg : Op → Bool
  | .sAdd | .sRemove | .sResult | .dInit | .dFinal | .dHash | .regSize | .regName => true
  | .nop | .sNew | .sUpdate | .sQuery | .encode | .decode | .detectEnc | .regFromName | .detectAlg => false

/-- SEL names an encoding (R310). -/
def namesEnc : Op → Bool
  | .encode | .decode => true
  | .nop | .sNew | .sAdd | .sRemove | .sUpdate | .sResult | .sQuery | .dInit | .dFinal | .dHash | .detectEnc | .regSize
  | .regName | .regFromName | .detectAlg => false

/-- Step 2 for the words of one opcode: a word of `op` whose RSV, or whose SEL or SID where R310 says "0", is not zero ends with BAD_FIELD
and has no other effect (R313). -/
def FieldsChecked (op : Op) : Prop :=
  ∀ s : State, opField s.pcmd = opNat op →
    (rsvField s.pcmd ≠ 0 ∨ (opUsesSel op = false ∧ selField s.pcmd ≠ 0) ∨ (opUsesSid op = false ∧ sidField s.pcmd ≠ 0)) →
    CompletesKeeping (runCommand s) s .badField {} []

/-- Step 5 fails: a must-be-zero bit of an ARG operand the command reads is 1. -/
def argBitsBad (op : Op) (s : State) : Prop :=
  match op with
  | .sNew => 2 ^ 17 ≤ s.arg0.toNat ∨ 2 ≤ s.arg1.toNat
  | .dInit => 2 ≤ s.arg1.toNat
  | _ => False

/-- Step 6 fails: an IBUF operand runs past IBUF. -/
def operandsBad (op : Op) (s : State) : Prop :=
  match op with
  | .sUpdate | .dHash | .encode | .decode | .detectEnc | .regFromName => RunsPast s s.arg1 s.arg0
  | .detectAlg => RunsPast s s.arg1 s.arg0 ∨ RunsPast s s.arg3 s.arg2
  | _ => False

/-- The codes with which a command may end once steps 1 to 6 have passed: success, a state check (step 7), or PARSE (step 8). -/
def lateCodes : List Code :=
  [.ok, .notFound, .ignored, .notEnabled, .noSize, .sizeMismatch, .finalized, .lengthOverflow, .parse]

/-! ## The host's accesses (R201, R203, R205) and the event of a step -/

/-- A register access: 32 bits wide, 4-byte aligned, in the register region. -/
abbrev RegAccess (off : Nat) (w : Width) : Prop := w = .w32 ∧ off % 4 = 0 ∧ off < 0x40

/-- An access inside IBUF, naturally aligned. -/
abbrev IbufAccess (p : Config.Params) (off : Nat) (w : Width) : Prop :=
  off % accessBytes w = 0 ∧ 0x1000 ≤ off ∧ off + accessBytes w ≤ 0x1000 + p.ibufSize

/-- An access inside OBUF, naturally aligned. -/
abbrev ObufAccess (p : Config.Params) (off : Nat) (w : Width) : Prop :=
  off % accessBytes w = 0 ∧ 0x2000 ≤ off ∧ off + accessBytes w ≤ 0x2000 + p.obufSize

/-- What a host reads at a window offset in `s` (R101, R204). -/
def readBack (s : State) (off : Nat) (w : Width) : W32 := (hostEvent s (.read (BitVec.ofNat 14 off) w)).rdata

/-- The host's event in this step, when the step is the host's. -/
def eventOf (s : State) : Option HostEvent :=
  if s.status.busy ∧ s.wait = 0 then none else s.hostQueue.head?

/-- The event is a 32-bit write of `v` to the register at offset `off`. -/
def IsRegWrite (e : HostEvent) (off : Nat) (v : W32) : Prop := ∃ o, e = .write o .w32 v ∧ o.toNat = off

/-- The event resets the machine: the hardware reset, or a 1 written to CTRL.SRST. -/
def IsReset (e : HostEvent) : Prop := e = .hardReset ∨ ∃ v, IsRegWrite e 0x03C v ∧ v.getLsbD 0 = true

/-- The event writes a 1 to bit `n` of STATUS. -/
def ClearsStatusBit (e : HostEvent) (n : Nat) : Prop := ∃ v, IsRegWrite e 0x010 v ∧ v.getLsbD n = true

/-- Every row of R1500 at its reset value but the contents of IBUF: what both resets leave (R1500, R1502). -/
def IsResetBut (p : Config.Params) (t : State) : Prop :=
  t.params = p ∧ t.status = resetStatus ∧ statusWord t.status = 0 ∧
  t.arg0 = 0 ∧ t.arg1 = 0 ∧ t.arg2 = 0 ∧ t.arg3 = 0 ∧ t.res0 = 0 ∧ t.res1 = 0 ∧ t.res2 = 0 ∧ t.res3 = 0 ∧
  t.olen = 0 ∧ t.doneIe = false ∧ t.errIe = false ∧ irqLine t = false ∧ t.scr = none ∧
  t.slots.length = p.nsess ∧ (∀ j, t.slot j = emptySlot) ∧
  ∀ draw k, obufByte t draw k = Config.freeByte draw (obufBase + k)

/-- The state after the ARG write of one key of an assembler line (R315). -/
def withKey (s : State) (kv : AsmKey × Nat) : State :=
  match kv.1 with
  | .len | .mask | .mlen => { s with arg0 := BitVec.ofNat 32 kv.2 }
  | .off | .flags | .moff => { s with arg1 := BitVec.ofNat 32 kv.2 }
  | .size => { s with arg2 := BitVec.ofNat 32 kv.2, arg3 := BitVec.ofNat 32 (kv.2 / 2 ^ 32) }
  | .dlen => { s with arg2 := BitVec.ofNat 32 kv.2 }
  | .doff => { s with arg3 := BitVec.ofNat 32 kv.2 }

/-! ## Texts (R404, R405, R414) -/

/-- Bit `j` of the stream of a byte string, most significant bit of each byte first; 0 beyond its end (R404, R405). -/
def streamBit (b : Bytes) (j : Nat) : Nat := ((b.getD (j / 8) 0).getLsbD (7 - j % 8)).toNat

/-- The value of the `k` stream bits from position `j`, the first one most significant (R405). -/
def streamValue (b : Bytes) (j : Nat) : Nat → Nat
  | 0 => 0
  | k + 1 => 2 * streamValue b j k + streamBit b (j + k)

/-- The text of the symbol values `vs` with its padding (R401, R406). -/
def textOf (e : Enc) (vs : List Nat) : Bytes :=
  vs.map (fun v => (alphabet e).getD v 0) ++ List.replicate (padCount e vs.length) padSymbol

/-- The symbol values of a valid text for `m` bytes: as many as R405 gives, each below 2^k (R414). -/
def ValidSymbols (e : Enc) (m : Nat) (vs : List Nat) : Prop :=
  vs.length = symCount e (8 * m) ∧ ∀ v ∈ vs, v < 2 ^ symBits e

/-- The values with the low `d` bits of the last one set to zero: the canonical form (R414). -/
def clearLast (d : Nat) : List Nat → List Nat
  | [] => []
  | [v] => [v / 2 ^ d * 2 ^ d]
  | v :: w :: rest => v :: clearLast d (w :: rest)

/-! ## Invariants: buffers -/

/-- Both buffers are in canonical form, and every listed byte lies inside its buffer. -/
def BuffersOk (s : State) : Prop :=
  Memory.wf s.ibuf = true ∧ Memory.wf s.obuf = true ∧ (∀ c ∈ s.ibuf, c.1 < s.params.ibufSize)

/-- OBUF lists exactly the bytes OBUF[0..OLEN), and OLEN is at most OBUF_SIZE (R110, R115). -/
def OutputOk (s : State) : Prop :=
  s.obuf.map Prod.fst = List.range s.olen.toNat ∧ s.olen.toNat ≤ s.params.obufSize

/-! ## Invariants: contexts and slots (R116, R118, R132 to R134) -/

/-- An MD context of `a` that has absorbed `n` bytes, with `words` items of chaining state: BUF holds the N mod B bytes of the
open block (R501, R503). -/
def MdOk {σ : Type} (a : MdAlg (List σ)) (words n : Nat) (c : MdCtx (List σ)) : Prop :=
  c.h.length = words ∧ c.n.toNat = n ∧ c.buf.length = n % a.blockBytes

/-- A Merkle accumulator of `n` hashes of `h` bytes: level i holds a hash exactly when bit i of N is 1 (R134). -/
def MerkleOk (h n : Nat) (m : Merkle) : Prop :=
  m.count.toNat = n ∧ m.stk.length = Config.nlevel ∧
  (∀ i, i < Config.nlevel → ((m.stk.getD i none).isSome = true ↔ m.count.getLsbD i = true)) ∧
  ∀ x, some x ∈ m.stk → x.length = h

/-- The number of chaining words of an MD algorithm (R133). -/
def chainWords : Alg → Nat
  | .md4 | .md5 | .ripemd128 => 4
  | .sha1 | .ripemd160 => 5
  | .sha224 | .sha256 | .ripemd256 | .sha384 | .sha512 => 8
  | .ripemd320 => 10
  | .whirlpool => 64
  | .tiger => 3
  | .crc32 | .ed2k | .tth | .aich => 0

/-- The context kind of an algorithm (R130, R132, R133). -/
def kindOk : Alg → Ctx → Prop
  | .crc32, .crc _ => True
  | .md4, .md32 _ | .md5, .md32 _ | .sha1, .md32 _ | .sha224, .md32 _ | .sha256, .md32 _ | .ripemd128, .md32 _
  | .ripemd160, .md32 _ | .ripemd256, .md32 _ | .ripemd320, .md32 _ => True
  | .sha384, .md64 _ | .sha512, .md64 _ | .tiger, .md64 _ => True
  | .whirlpool, .mat _ => True
  | .ed2k, .ed2k _ | .tth, .tth _ | .aich, .aich _ => True
  | _, _ => False

/-- An ED2K context that has absorbed `n` bytes: the chunk is closed lazily, so that once a chunk is closed the open one holds a byte
(R1101, R1103). -/
structure Ed2kOk (n : Nat) (c : Ed2kCtx) : Prop where
  inner : MdOk md4Alg 4 c.cb c.inner
  outer : MdOk md4Alg 4 (16 * c.nch.toNat) c.outer
  cb_le : c.cb ≤ Config.chunkBytes
  total : c.nch.toNat * Config.chunkBytes + c.cb = n
  open_chunk : 0 < c.nch.toNat → 0 < c.cb

/-- A TTH context that has absorbed `n` bytes: LB is below LEAF (R1120). -/
structure TthOk (n : Nat) (c : TthCtx) : Prop where
  leaf : MdOk tigerAlg 3 (c.lb + 1) c.lctx
  lb_lt : c.lb < Config.leafBytes
  total : c.leaves.count.toNat * Config.leafBytes + c.lb = n
  leaves : MerkleOk 24 c.leaves.count.toNat c.leaves

/-- An AICH context of declared size `size` that has absorbed `n` bytes: PB is below PART, CPOS below CHUNK, NPART at most 52 between bytes
(R1140, R1142). -/
structure AichOk (size : W64) (n : Nat) (c : AichCtx) : Prop where
  part : MdOk sha1Alg 5 (c.pb + 1) c.pctx
  pb_lt : c.pb < Config.partBytes
  cpos_lt : c.cpos < Config.chunkBytes
  chunk : c.parts.count.toNat * Config.partBytes + c.pb = c.cpos
  total : c.chunks.count.toNat * Config.chunkBytes + c.cpos = n
  parts : MerkleOk 20 c.parts.count.toNat c.parts
  chunks : MerkleOk 20 c.chunks.count.toNat c.chunks
  asize : c.asize = size

/-- A context of `a` that has absorbed exactly `n` bytes, for a declared size `size` (R118, R132). -/
def CtxOk (a : Alg) (size : W64) (n : Nat) : Ctx → Prop
  | .crc _ => a = .crc32
  | .md32 c => kindOk a (.md32 c) ∧ MdOk (md32Of a) (chainWords a) n c
  | .md64 c => kindOk a (.md64 c) ∧ MdOk (md64Of a) (chainWords a) n c
  | .mat c => a = .whirlpool ∧ MdOk whirlAlg 64 n c
  | .ed2k c => a = .ed2k ∧ Ed2kOk n c
  | .tth c => a = .tth ∧ TthOk n c
  | .aich c => a = .aich ∧ AichOk size n c

/-- A slot as the commands keep it: a context for each enabled algorithm and no other, each with TOTAL bytes absorbed (R116, R118); a
clean slot has TOTAL = 0 (R1206), a slot without a size has SIZE = 0 (R1203), and AICH has a size that TOTAL has not passed (R1144). -/
def SlotOk (sl : Slot) : Prop :=
  sl.ctx.length = Config.nalg ∧
  (∀ a, match slotCtx sl a with
    | none => slotEn sl a = false
    | some c => slotEn sl a = true ∧ CtxOk a sl.size sl.total.toNat c) ∧
  (sl.dirty = false → sl.total = 0) ∧
  (sl.hasSize = false → sl.size = 0) ∧
  (slotEn sl .aich = true → sl.hasSize = true ∧ sl.total.toNat ≤ sl.size.toNat)

/-- The state holds NSESS slots, each as the commands keep it. -/
def SlotsOk (s : State) : Prop := s.slots.length = s.params.nsess ∧ ∀ sl ∈ s.slots, SlotOk sl

/-- The invariant of the machine: parameters in their ranges (R9), buffers, output and slots as above. -/
def Inv (s : State) : Prop := s.params.wf ∧ BuffersOk s ∧ OutputOk s ∧ SlotsOk s

/-! ## The trees of the composite digests (R1105, R1112, R1130) -/

/-- One level of the tree: adjacent nodes paired, an unpaired last node promoted unchanged (R1112). -/
def pairLevel (nh : Bytes → Bytes → Bytes) : List Bytes → List Bytes
  | x :: y :: rest => nh x y :: pairLevel nh rest
  | [x] => [x]
  | [] => []

/-- `Root` (R1112), by levels; the first argument bounds their number. -/
def rootWithin (nh : Bytes → Bytes → Bytes) : Nat → List Bytes → Bytes
  | _, [] => []
  | _, [x] => x
  | 0, x :: _ => x
  | k + 1, xs => rootWithin nh k (pairLevel nh xs)

/-- `Root(xs)` (R1112): at most |xs| levels. -/
def root (nh : Bytes → Bytes → Bytes) (xs : List Bytes) : Bytes := rootWithin nh xs.length xs

/-- The message cut into pieces of `k` bytes, the last holding the rest; the first argument bounds their number. -/
def piecesWithin : Nat → Nat → Bytes → List Bytes
  | 0, _, _ => []
  | _ + 1, _, [] => []
  | f + 1, k, m => m.take k :: piecesWithin f k (m.drop k)

/-- The message cut into pieces of `k` bytes, the last holding the rest; an empty message is one empty piece (R1105, R1123, R1145). -/
def pieces (k : Nat) (m : Bytes) : List Bytes := if m = [] then [[]] else piecesWithin m.length k m

end Sys2Proof.Safety
end

