-- ==== Sys2Proof/Certificates/Slice0/Obligations.lean ====
section
/-! DEFINITION. The statements for the provers, as propositions over the model. Each docstring names the rule of spec/ that the statement
formalises, or says that it is the model's choice. -/

open Sys2Proof Sys2Proof.Machine Sys2Proof.Safety

/-! ## Encoding -/

/-- Decode and encode agree: the word of every well-formed command decodes to that command (R301, R310, R317). -/
def Obligations.DecodeOfEncode : Prop :=
  ∀ i : Instr, i.wf = true → Sys2Proof.decode (Sys2Proof.encode i) = .ok i

/-- Every word that decodes is the one word of its command, which is well formed (R301, R310, R317). -/
def Obligations.EncodeOfDecode : Prop :=
  ∀ (w : W32) (i : Instr), Sys2Proof.decode w = .ok i → i.wf = true ∧ Sys2Proof.encode i = w

/-- R311: a row matches a word when the word under its mask is its match, the masks being those of the four uses of SEL and SID and the
match being OP; and a word decodes to a command of a row exactly when the row matches it. -/
def Obligations.RowMatch : Prop :=
  (∀ op : Op, (rowMatch op).toNat = opNat op ∧
    rowMask op = match opUsesSel op, opUsesSid op with
      | true, true => 0xFFF000FF#32
      | false, true => 0xFFF0FFFF#32
      | true, false => 0xFFFF00FF#32
      | false, false => 0xFFFFFFFF#32) ∧
  ∀ (op : Op) (w : W32), w &&& rowMask op = rowMatch op ↔ ∃ i, Sys2Proof.decode w = .ok i ∧ opOf i = op

/-- R312: a latched word whose opcode is reserved ends with BAD_OPCODE and has no other effect, and no word but 0x00000000 is NOP. -/
def Obligations.ReservedOpcodes : Prop :=
  (∀ s : State, (opField s.pcmd = 0x07 ∨ (0x0B ≤ opField s.pcmd ∧ opField s.pcmd ≤ 0x0F) ∨
      (0x13 ≤ opField s.pcmd ∧ opField s.pcmd ≤ 0x17) ∨ 0x1C ≤ opField s.pcmd) →
    CompletesKeeping (runCommand s) s .badOpcode {} []) ∧
  ∀ w : W32, Sys2Proof.decode w = .ok .nop ↔ w = 0

/-- R317: the assembled word of a line is (sid << 16) | (sel << 8) | op, and the rule's three examples; and a few words written out bit by
bit from the opcode map decode to the commands they stand for (R301, R310). -/
def Obligations.AssembledWords : Prop :=
  (∀ i : Instr, i.wf = true → (Sys2Proof.encode i).toNat = sidOf i * 2 ^ 16 + selOf i * 2 ^ 8 + opNat (opOf i)) ∧
  asmLine (.sUpdate 2) [(.len, 3), (.off, 0)] =
    [.write 0x014 .w32 3, .write 0x018 .w32 0, .write 0x00C .w32 0x00020004, .waitIdle] ∧
  asmLine (.sResult (algId .sha1) 2) [] = [.write 0x00C .w32 0x00020305, .waitIdle] ∧
  asmLine (.encode (encId .base32)) [(.len, 24), (.off, 0)] =
    [.write 0x014 .w32 24, .write 0x018 .w32 0, .write 0x00C .w32 0x00000210, .waitIdle] ∧
  Sys2Proof.decode 0x00000000#32 = .ok .nop ∧ Sys2Proof.decode 0x00010F02#32 = .ok (.sAdd 15 1) ∧
  Sys2Proof.decode 0x00031009#32 = .ok (.dFinal 16 3) ∧ Sys2Proof.decode 0x0000050A#32 = .ok (.dHash 5) ∧
  Sys2Proof.decode 0x00000411#32 = .ok (.decode 4) ∧ Sys2Proof.decode 0x00000718#32 = .ok (.regSize 7)

/-! ## A step -/

/-- A step runs the decoded command: when a command runs and its time has elapsed, the step is `exec` of the command the latched word
decodes to, at that very state, and nothing is added around it; a latched word that is no command ends with its code (R105, R211,
R1410). -/
def Obligations.StepRunsCommand : Prop :=
  ∀ s : State, s.status.busy = true → s.wait = 0 →
    (∀ i, Sys2Proof.decode s.pcmd = .ok i → i.wf = true ∧ Machine.step s = exec i s) ∧
    (∀ e, Sys2Proof.decode s.pcmd = .error e →
      CompletesKeeping (Machine.step s) s (match e with | .badOpcode => .badOpcode | .badField => .badField) {} [])

/-- A step that does not complete a command performs the host's next event, in issue order, or nothing when the host issues none; WAIT
stays until it has read BUSY as 0 (R211, R316). That the host's events are a list from which each such step takes the first, with
WAIT kept at its head, and that the time of a running command goes down by one in each such step, are the model's choices
(notes/assumptions/5.md, 3.md). -/
def Obligations.StepPerformsHostEvent : Prop :=
  ∀ s : State, ¬(s.status.busy = true ∧ s.wait = 0) →
    (s.hostQueue = [] → Machine.step s = .next { s with wait := if s.status.busy then s.wait - 1 else s.wait }) ∧
    ∀ e rest, s.hostQueue = e :: rest →
      Machine.step s = .next (hostEvent
        { s with wait := if s.status.busy then s.wait - 1 else s.wait,
                 hostQueue := if e = .waitIdle ∧ s.status.busy = true then e :: rest else rest } e)

/-- R1400: every command ends, in one step and in every state, with exactly one completion code, which that step writes to STATUS with
DONE; the code is an error exactly when its byte is 0x10 or above, and then ERR is set. A host access produces no code: an
access the window does not admit leaves CODE as it was and only sets AERR. That an access astride the end of a buffer is such an
access, and that one made while BUSY = 1 leaves OVR as it was, are the model's readings (notes/assumptions/8.md, 7.md). -/
def Obligations.EveryCommandCompletes : Prop :=
  (∀ s : State, s.status.busy = true → s.wait = 0 → ∃ t c, Machine.step s = .next t ∧
    t.status = { s.status with busy := false, done := true, code := c,
                               err := s.status.err || decide (0x10 ≤ (codeByte c).toNat) }) ∧
  ∀ (s : State) (off : BitVec 14) (w : Width) (v : W32), ¬(RegAccess off.toNat w ∨ IbufAccess s.params off.toNat w) →
    (hostEvent s (.write off w v)).status = { s.status with aerr := true } ∧
    (¬ObufAccess s.params off.toNat w → (hostEvent s (.read off w)).status = { s.status with aerr := true })

/-- R1410: the checks of a command are made in the order of the rule, and the first that fails gives the code; when those of the word, the
selectors and the operands pass, the command ends with success, the code of a state check, or PARSE. -/
def Obligations.CheckOrder : Prop :=
  ∀ s : State, s.params.wf →
    match opOfNat (opField s.pcmd) with
    | none => CompletesKeeping (runCommand s) s .badOpcode {} []
    | some op =>
      (rsvField s.pcmd ≠ 0 ∨ (opUsesSel op = false ∧ selField s.pcmd ≠ 0) ∨ (opUsesSid op = false ∧ sidField s.pcmd ≠ 0) →
        CompletesKeeping (runCommand s) s .badField {} []) ∧
      (¬(rsvField s.pcmd ≠ 0 ∨ (opUsesSel op = false ∧ selField s.pcmd ≠ 0) ∨ (opUsesSid op = false ∧ sidField s.pcmd ≠ 0)) →
        (opUsesSid op = true ∧ s.params.nsess ≤ sidField s.pcmd → CompletesKeeping (runCommand s) s .badSid {} []) ∧
        (¬(opUsesSid op = true ∧ s.params.nsess ≤ sidField s.pcmd) →
          (namesAlg op = true ∧ 17 ≤ selField s.pcmd → CompletesKeeping (runCommand s) s .badAlg {} []) ∧
          (namesEnc op = true ∧ 6 ≤ selField s.pcmd → CompletesKeeping (runCommand s) s .badEnc {} []) ∧
          (¬(namesAlg op = true ∧ 17 ≤ selField s.pcmd) ∧ ¬(namesEnc op = true ∧ 6 ≤ selField s.pcmd) →
            (argBitsBad op s → CompletesKeeping (runCommand s) s .badField {} []) ∧
            (¬argBitsBad op s → operandsBad op s → CompletesKeeping (runCommand s) s .badRange {} []) ∧
            (¬argBitsBad op s → ¬operandsBad op s →
              ∃ t, runCommand s = .next t ∧ t.status.code ∈ lateCodes))))

/-- R1412: the rule's five examples of the order. -/
def Obligations.CheckOrderExamples : Prop :=
  ∀ s : State, s.params.wf →
    (s.pcmd = 0x00100004 → CompletesKeeping (runCommand s) s .badField {} []) ∧
    (s.pcmd = 0x00001105 → CompletesKeeping (runCommand s) s .badAlg {} []) ∧
    (s.params.nsess = 4 → s.pcmd = 0x00041105 → CompletesKeeping (runCommand s) s .badSid {} []) ∧
    (s.pcmd = 0x000000FF → CompletesKeeping (runCommand s) s .badOpcode {} []) ∧
    ∀ sid, sid < s.params.nsess → (s.slot sid).final = true → RunsPast s s.arg1 s.arg0 →
      CompletesKeeping (exec (.sUpdate sid) s) s .badRange {} []

/-- R1404: a command that ends with an error code changes no slot, not SCR, nothing no command writes, and leaves no defined byte in OBUF;
RES0, RES2 and RES3 are 0, and RES1 is 0 unless the code is PARSE. -/
def Obligations.FailureAtomicity : Prop :=
  ∀ s t : State, CompletionStep s t → codeIsError t.status.code = true →
    t.slots = s.slots ∧ t.scr = s.scr ∧ Kept s t ∧ t.res0 = 0 ∧ t.res2 = 0 ∧ t.res3 = 0 ∧
    (t.status.code ≠ .parse → t.res1 = 0) ∧ t.olen = 0 ∧ (∀ draw k, obufByte t draw k = Config.freeByte draw (obufBase + k)) ∧
    t.status = { s.status with busy := false, done := true, err := true, code := t.status.code }

/-- Slots are independent (R1230): a command changes no slot but the one its SID names, and none when it names none; and what it does and
answers does not depend on any other slot: from two states that differ only in other slots it leaves states that differ only
there. -/
def Obligations.SlotIndependence : Prop :=
  (∀ (i : Instr) (s t : State), exec i s = .next t →
    (∀ j, j ≠ sidOf i → t.slot j = s.slot j) ∧ (opUsesSid (opOf i) = false → t.slots = s.slots)) ∧
  ∀ (i : Instr) (s s' : State), s'.slots.length = s.slots.length → s' = { s with slots := s'.slots } →
    (opUsesSid (opOf i) = true → s'.slot (sidOf i) = s.slot (sidOf i)) →
    ∃ t t', exec i s = .next t ∧ exec i s' = .next t' ∧ t' = { t with slots := t'.slots } ∧
      (opUsesSid (opOf i) = true → t'.slot (sidOf i) = t.slot (sidOf i))

/-! ## The session controller's commands -/

/-- R1201: NOP completes with OK and changes nothing but STATUS, RES0..RES3 and OLEN. -/
def Obligations.NopEffect : Prop := FieldsChecked .nop ∧ ∀ s : State, CompletesKeeping (exec .nop s) s .ok {} []

/-- R1203: S_NEW, with its checks in order. -/
def Obligations.SNewEffect : Prop :=
  FieldsChecked .sNew ∧
  ∀ (s : State) (sid : Nat), s.slots.length = s.params.nsess →
    if s.params.nsess ≤ sid then CompletesKeeping (exec (.sNew sid) s) s .badSid {} []
    else if 2 ^ 17 ≤ s.arg0.toNat ∨ 2 ≤ s.arg1.toNat then CompletesKeeping (exec (.sNew sid) s) s .badField {} []
    else if s.arg0.getLsbD 16 = true ∧ s.arg1.toNat = 0 then CompletesKeeping (exec (.sNew sid) s) s .noSize {} []
    else CompletesSettingSlot (exec (.sNew sid) s) s {} [] sid
      (IsNewSlot (BitVec.ofNat 17 s.arg0.toNat) (decide (s.arg1.toNat = 1)) (sizeOperand s))

/-- R1206: S_ADD, with its checks in order. -/
def Obligations.SAddEffect : Prop :=
  FieldsChecked .sAdd ∧
  ∀ (s : State) (alg sid : Nat), s.slots.length = s.params.nsess → (s.slot sid).ctx.length = 17 →
    if s.params.nsess ≤ sid then CompletesKeeping (exec (.sAdd alg sid) s) s .badSid {} []
    else if 17 ≤ alg then CompletesKeeping (exec (.sAdd alg sid) s) s .badAlg {} []
    else if (s.slot sid).final = true then CompletesKeeping (exec (.sAdd alg sid) s) s .finalized {} []
    else if (s.slot sid).dirty = true then CompletesKeeping (exec (.sAdd alg sid) s) s .ignored {} []
    else if (s.slot sid).en.getLsbD alg = true then CompletesKeeping (exec (.sAdd alg sid) s) s .ok {} []
    else if alg = 16 ∧ (s.slot sid).hasSize = false then CompletesKeeping (exec (.sAdd alg sid) s) s .noSize {} []
    else CompletesSettingSlot (exec (.sAdd alg sid) s) s {} [] sid (IsAdded (s.slot sid) alg)

/-- R1208: S_REMOVE, with its checks in order; removing an algorithm that is not enabled completes with OK. -/
def Obligations.SRemoveEffect : Prop :=
  FieldsChecked .sRemove ∧
  ∀ (s : State) (alg sid : Nat), s.slots.length = s.params.nsess →
    if s.params.nsess ≤ sid then CompletesKeeping (exec (.sRemove alg sid) s) s .badSid {} []
    else if 17 ≤ alg then CompletesKeeping (exec (.sRemove alg sid) s) s .badAlg {} []
    else if (s.slot sid).final = true then CompletesKeeping (exec (.sRemove alg sid) s) s .finalized {} []
    else if (s.slot sid).dirty = true then CompletesKeeping (exec (.sRemove alg sid) s) s .ignored {} []
    else CompletesSettingSlot (exec (.sRemove alg sid) s) s {} [] sid (IsRemoved (s.slot sid) alg)

/-- R1210: S_UPDATE, with its checks in order: every enabled context absorbs the operand's bytes, TOTAL counts them, and RES1 : RES0 is
the new TOTAL. -/
def Obligations.SUpdateEffect : Prop :=
  FieldsChecked .sUpdate ∧
  ∀ (s : State) (sid : Nat), s.slots.length = s.params.nsess →
    if s.params.nsess ≤ sid then CompletesKeeping (exec (.sUpdate sid) s) s .badSid {} []
    else if RunsPast s s.arg1 s.arg0 then CompletesKeeping (exec (.sUpdate sid) s) s .badRange {} []
    else if (s.slot sid).final = true then CompletesKeeping (exec (.sUpdate sid) s) s .finalized {} []
    else if 2 ^ 64 - 1 < (s.slot sid).total.toNat + s.arg0.toNat then
      CompletesKeeping (exec (.sUpdate sid) s) s .lengthOverflow {} []
    else if (s.slot sid).en.getLsbD 16 = true ∧ (s.slot sid).size.toNat < (s.slot sid).total.toNat + s.arg0.toNat then
      CompletesKeeping (exec (.sUpdate sid) s) s .sizeMismatch {} []
    else CompletesSettingSlot (exec (.sUpdate sid) s) s
      { r0 := BitVec.ofNat 32 ((s.slot sid).total.toNat + s.arg0.toNat)
        r1 := BitVec.ofNat 32 (((s.slot sid).total.toNat + s.arg0.toNat) / 2 ^ 32) } [] sid
      (IsFed (s.slot sid) (operand s))

/-- R1213: S_RESULT, with its checks in order: the digest of the algorithm's context, of the algorithm's digest length, leaving the
slot as it is. -/
def Obligations.SResultEffect : Prop :=
  FieldsChecked .sResult ∧
  ∀ (s : State) (alg sid : Nat), SlotOk (s.slot sid) →
    if s.params.nsess ≤ sid then CompletesKeeping (exec (.sResult alg sid) s) s .badSid {} []
    else if 17 ≤ alg then CompletesKeeping (exec (.sResult alg sid) s) s .badAlg {} []
    else if (s.slot sid).en.getLsbD alg = false then CompletesKeeping (exec (.sResult alg sid) s) s .notEnabled {} []
    else if alg = 16 ∧ (s.slot sid).total ≠ (s.slot sid).size then
      CompletesKeeping (exec (.sResult alg sid) s) s .sizeMismatch {} []
    else ∃ a c, algId a = alg ∧ slotCtx (s.slot sid) a = some c ∧ (finalCtx a c).length = digestLen a ∧
      CompletesKeeping (exec (.sResult alg sid) s) s .ok { r0 := BitVec.ofNat 32 (digestLen a) } (finalCtx a c)

/-- R1215: S_QUERY reports EN, the flags DIRTY, FINAL and HAS_SIZE in bits 0, 1 and 2, and TOTAL. -/
def Obligations.SQueryEffect : Prop :=
  FieldsChecked .sQuery ∧
  ∀ (s : State) (sid : Nat),
    if s.params.nsess ≤ sid then CompletesKeeping (exec (.sQuery sid) s) s .badSid {} []
    else CompletesKeeping (exec (.sQuery sid) s) s .ok
      { r0 := BitVec.ofNat 32 (s.slot sid).en.toNat
        r1 := BitVec.ofNat 32 ((s.slot sid).dirty.toNat + 2 * (s.slot sid).final.toNat + 4 * (s.slot sid).hasSize.toNat)
        r2 := BitVec.ofNat 32 (s.slot sid).total.toNat
        r3 := BitVec.ofNat 32 ((s.slot sid).total.toNat / 2 ^ 32) } []

/-- R1220: D_INIT, with its checks in order; and its effect is exactly that of S_NEW on the same slot with mask = 1 << alg and the same
flags and size. -/
def Obligations.DInitEffect : Prop :=
  FieldsChecked .dInit ∧
  (∀ (s : State) (alg sid : Nat), s.slots.length = s.params.nsess →
    if s.params.nsess ≤ sid then CompletesKeeping (exec (.dInit alg sid) s) s .badSid {} []
    else if 17 ≤ alg then CompletesKeeping (exec (.dInit alg sid) s) s .badAlg {} []
    else if 2 ≤ s.arg1.toNat then CompletesKeeping (exec (.dInit alg sid) s) s .badField {} []
    else if alg = 16 ∧ s.arg1.toNat = 0 then CompletesKeeping (exec (.dInit alg sid) s) s .noSize {} []
    else CompletesSettingSlot (exec (.dInit alg sid) s) s {} [] sid
      (IsNewSlot (BitVec.ofNat 17 (2 ^ alg)) (decide (s.arg1.toNat = 1)) (sizeOperand s))) ∧
  ∀ (s : State) (alg sid : Nat), alg < 17 →
    ∃ t, exec (.dInit alg sid) s = .next t ∧
      exec (.sNew sid) { s with arg0 := BitVec.ofNat 32 (2 ^ alg) } = .next { t with arg0 := BitVec.ofNat 32 (2 ^ alg) }

/-- R1222: D_FINAL, with its checks in order: the digest of the algorithm's context, and FINAL set on the slot, whose other fields stay. -/
def Obligations.DFinalEffect : Prop :=
  FieldsChecked .dFinal ∧
  ∀ (s : State) (alg sid : Nat), s.slots.length = s.params.nsess → SlotOk (s.slot sid) →
    if s.params.nsess ≤ sid then CompletesKeeping (exec (.dFinal alg sid) s) s .badSid {} []
    else if 17 ≤ alg then CompletesKeeping (exec (.dFinal alg sid) s) s .badAlg {} []
    else if (s.slot sid).en.getLsbD alg = false then CompletesKeeping (exec (.dFinal alg sid) s) s .notEnabled {} []
    else if alg = 16 ∧ (s.slot sid).total ≠ (s.slot sid).size then
      CompletesKeeping (exec (.dFinal alg sid) s) s .sizeMismatch {} []
    else ∃ a c, algId a = alg ∧ slotCtx (s.slot sid) a = some c ∧ (finalCtx a c).length = digestLen a ∧
      CompletesSettingSlot (exec (.dFinal alg sid) s) s { r0 := BitVec.ofNat 32 (digestLen a) } (finalCtx a c) sid
        (fun sl => sl = { s.slot sid with final := true })

/-- R1224: D_HASH, with its checks in order: the digest of the operand's bytes, with their number as the declared size; no slot changes. -/
def Obligations.DHashEffect : Prop :=
  FieldsChecked .dHash ∧
  ∀ (s : State) (alg : Nat),
    if 17 ≤ alg then CompletesKeeping (exec (.dHash alg) s) s .badAlg {} []
    else if RunsPast s s.arg1 s.arg0 then CompletesKeeping (exec (.dHash alg) s) s .badRange {} []
    else ∃ a, algId a = alg ∧
      CompletesUsingScratch (exec (.dHash alg) s) s .ok { r0 := BitVec.ofNat 32 (digestLen a) }
        (finalCtx a (absorbCtx a (initCtx a (BitVec.ofNat 64 s.arg0.toNat)) (operand s)))

/-- The result of D_HASH equals that of D_INIT, S_UPDATE and D_FINAL on the same data with the AICH size set to the length (R1224): the
four commands complete with OK, for every algorithm, and RES0, OLEN and the bytes of OBUF agree. -/
def Obligations.DHashEqualsSession : Prop :=
  ∀ (s : State) (a : Alg) (sid : Nat) (len off : W32), s.slots.length = s.params.nsess → sid < s.params.nsess →
    ¬RunsPast s off len → OperandWritten s off len →
    ∃ t u v w,
      exec (.dInit (algId a) sid) { s with arg1 := 1, arg2 := len, arg3 := 0 } = .next t ∧ t.status.code = .ok ∧
      exec (.sUpdate sid) { t with arg0 := len, arg1 := off } = .next u ∧ u.status.code = .ok ∧
      exec (.dFinal (algId a) sid) u = .next v ∧ v.status.code = .ok ∧
      exec (.dHash (algId a)) { s with arg0 := len, arg1 := off } = .next w ∧ w.status.code = .ok ∧
      v.res0 = w.res0 ∧ v.olen = w.olen ∧ ∀ draw k, obufByte v draw k = obufByte w draw k

/-- R1212: S_UPDATE commands on one slot whose data concatenate to what one S_UPDATE takes leave the slot exactly as that one does,
whatever the host does between them. -/
def Obligations.CommandChunkInvariance : Prop :=
  ∀ (sid : Nat) (sl sl1 sl2 : Slot) (ms : List Bytes), ms ≠ [] →
    Feeds sid sl ms sl1 → Feeds sid sl [ms.flatten] sl2 → sl1 = sl2

/-! ## The digest engines -/

/-- R505: the padded tail is one block when BUF holds at most B − Lw − 1 bytes and two blocks otherwise; the rule's cases for the block
and length-field sizes of the thirteen algorithms follow. -/
def Obligations.PaddedTail : Prop :=
  (∀ (σ : Type) (a : MdAlg σ) (c : MdCtx σ), a.lenBytes + 1 ≤ a.blockBytes →
    c.buf.length = c.n.toNat % a.blockBytes →
    (mdTail a c).length =
      if c.buf.length ≤ a.blockBytes - a.lenBytes - 1 then a.blockBytes else 2 * a.blockBytes) ∧
  ∀ (σ : Type) (a : MdAlg σ) (c : MdCtx σ), c.buf.length = c.n.toNat % a.blockBytes →
    (a.blockBytes = 64 → a.lenBytes = 8 → ((mdTail a c).length = 64 ↔ c.n.toNat % 64 ≤ 55)) ∧
    (a.blockBytes = 128 → a.lenBytes = 16 → ((mdTail a c).length = 128 ↔ c.n.toNat % 128 ≤ 111)) ∧
    (a.blockBytes = 64 → a.lenBytes = 32 → ((mdTail a c).length = 64 ↔ c.n.toNat % 64 ≤ 31))

/-- The digest of every message that fits the 64-bit counter has exactly the algorithm's declared length, for every algorithm (R530,
R130). -/
def Obligations.DigestLength : Prop :=
  ∀ (a : Alg) (m : Bytes) (size : W64), m.length < 2 ^ 64 → (digest a m size).length = digestLen a

/-- R1105: the closed form of ED2K, and its value for the empty message. -/
def Obligations.Ed2kClosedForm : Prop :=
  (∀ (m : Bytes) (size : W64), m.length < 2 ^ 64 →
    digest .ed2k m size =
      if m.length ≤ 9728000 then mdDigest md4Alg m
      else mdDigest md4Alg ((pieces 9728000 m).map (mdDigest md4Alg)).flatten) ∧
  digest .ed2k [] 0 = mdDigest md4Alg [] ∧
  mdDigest md4Alg [] =
    [0x31, 0xd6, 0xcf, 0xe0, 0xd1, 0x6a, 0xe9, 0x31, 0xb7, 0x3c, 0x59, 0xd7, 0xe0, 0xc0, 0x89, 0xc0]

/-- The Merkle collapsing engine computes the root of the tree (R1112): for hashes pushed in order, Fold gives the root of the tree that
pairs adjacent nodes level by level and promotes an unpaired last node; the 56 levels hold every count below 2^56. -/
def Obligations.MerkleRoot : Prop :=
  ∀ (nh : Bytes → Bytes → Bytes) (xs : List Bytes), xs ≠ [] → xs.length < 2 ^ 56 →
    merkleFold nh (xs.foldl (merklePush nh) merkleEmpty) = root nh xs

/-- The closed form of TTH (R1120 to R1123): the root of the tree over the leaf hashes of the 1024-byte leaves, an empty message being
one empty leaf. -/
def Obligations.TthClosedForm : Prop :=
  ∀ (m : Bytes) (size : W64), m.length < 2 ^ 64 →
    digest .tth m size =
      root (fun l r => mdDigest tigerAlg (0x01 :: (l ++ r))) ((pieces 1024 m).map fun d => mdDigest tigerAlg (0x00 :: d))

/-- R1145: the closed form of AICH; a file of at most PART bytes has the hash of its one part. -/
def Obligations.AichClosedForm : Prop :=
  (∀ (m : Bytes) (size : W64), m.length < 2 ^ 64 →
    digest .aich m size =
      root nodeHashAich ((pieces 9728000 m).map fun c => root nodeHashAich ((pieces 184320 c).map leafHashAich))) ∧
  (∀ (m : Bytes) (size : W64), m.length ≤ 184320 → digest .aich m size = mdDigest sha1Alg (0x00 :: m)) ∧
  digest .aich [0x61, 0x62, 0x63] 3 =
    [0xdd, 0x37, 0x42, 0xec, 0x1a, 0x4d, 0x2a, 0x5b, 0x56, 0x3a, 0x2b, 0x62, 0xae, 0xf7, 0xfc, 0x4a, 0x46, 0xfa, 0x6c, 0xca]

/-! ## The codec -/

/-- Every symbol of an encoding is the one R404 and R405 give: its value is that of the next k bits of the bit stream, most significant bit
of each byte first, zeros beyond its end. -/
def Obligations.EncodeBitStream : Prop :=
  ∀ (e : Enc) (b : Bytes) (i : Nat), i < (8 * b.length + symBits e - 1) / symBits e →
    (encodeText e b)[i]? = (alphabet e)[streamValue b (i * symBits e) (symBits e)]?

/-- Every ENCODE output fits OBUF (R10): its length is that of R406, for Base16 twice the input's, and for 16 bytes or more no other
encoding is longer. -/
def Obligations.EncodeFits : Prop :=
  (∀ (e : Enc) (b : Bytes), (encodeText e b).length =
    groupSyms e * ((symCount e (8 * b.length) + groupSyms e - 1) / groupSyms e)) ∧
  (∀ b : Bytes, (encodeText .base16 b).length = 2 * b.length ∧ (encodeText .base16l b).length = 2 * b.length) ∧
  (∀ (e : Enc) (b : Bytes), 16 ≤ b.length → (encodeText e b).length ≤ 2 * b.length) ∧
  ∀ (p : Config.Params) (e : Enc) (b : Bytes), p.wf → b.length ≤ p.ibufSize → (encodeText e b).length ≤ p.obufSize

/-- Decoding an encoding gives the bytes back, with the symbol count as the characters used, for every byte string and encoding (R414). -/
def Obligations.DecodeOfEncodeText : Prop :=
  ∀ (e : Enc) (b : Bytes), decodeText e (encodeText e b) = .ok b (symCount e (8 * b.length))

/-- Encoding the decoding of a valid text gives its canonical form: the discarded low bits of its last symbol set to zero (R414). -/
def Obligations.CanonicalText : Prop :=
  ∀ (e : Enc) (m : Nat) (vs : List Nat), ValidSymbols e m vs →
    ∃ out, decodeText e (textOf e vs) = .ok out vs.length ∧ out.length = m ∧
      encodeText e out = textOf e (clearLast (vs.length * symBits e - 8 * m) vs)

/-- Decoding stops at the first padding symbol without looking further, and fails at the first character that is neither a symbol nor
padding, giving its index and no bytes (R411, R412). -/
def Obligations.DecodeStops : Prop :=
  (∀ (e : Enc) (u v : Bytes), (∀ c ∈ u, c ∈ alphabet e) →
    ∃ out, decodeText e u = .ok out u.length ∧ decodeText e (u ++ padSymbol :: v) = .ok out u.length) ∧
  (∀ (e : Enc) (u v : Bytes) (x : Byte), (∀ c ∈ u, c ∈ alphabet e) → x ∉ alphabet e → x ≠ padSymbol →
    decodeText e (u ++ x :: v) = .parse u.length) ∧
  decodeText .base64 [0x5A, 0x6D, 0x38, 0x3D, 0x21, 0x21] = .ok [0x66, 0x6F] 3

/-- R415: detection answers the first encoding, in identifier order, whose alphabet with the padding symbol holds every character and
whose decode is OK and not empty; it answers none when there is no such encoding. -/
def Obligations.DetectFirstEncoding : Prop :=
  ∀ t : Bytes,
    match detectEnc t with
    | some e => ((∀ c ∈ t, c ∈ alphabet e ∨ c = padSymbol) ∧ ∃ out used, decodeText e t = .ok out used ∧ out ≠ []) ∧
        ∀ e', encId e' < encId e →
          ¬((∀ c ∈ t, c ∈ alphabet e' ∨ c = padSymbol) ∧ ∃ out used, decodeText e' t = .ok out used ∧ out ≠ [])
    | none => ∀ e, ¬((∀ c ∈ t, c ∈ alphabet e ∨ c = padSymbol) ∧ ∃ out used, decodeText e t = .ok out used ∧ out ≠ [])

/-- R420: ENCODE, with its checks in order; the second range check never fails with the parameters of R9. -/
def Obligations.EncodeEffect : Prop :=
  FieldsChecked .encode ∧
  ∀ (s : State) (enc : Nat), s.params.wf →
    if 6 ≤ enc then CompletesKeeping (exec (.encode enc) s) s .badEnc {} []
    else if RunsPast s s.arg1 s.arg0 then CompletesKeeping (exec (.encode enc) s) s .badRange {} []
    else ∃ e, encId e = enc ∧
      CompletesKeeping (exec (.encode enc) s) s .ok { r0 := BitVec.ofNat 32 (encodeText e (operand s)).length }
        (encodeText e (operand s))

/-- R422: DECODE, with its checks in order: the decoded bytes and the characters used, or PARSE with the position in RES1. -/
def Obligations.DecodeEffect : Prop :=
  FieldsChecked .decode ∧
  ∀ (s : State) (enc : Nat), s.params.wf →
    if 6 ≤ enc then CompletesKeeping (exec (.decode enc) s) s .badEnc {} []
    else if RunsPast s s.arg1 s.arg0 then CompletesKeeping (exec (.decode enc) s) s .badRange {} []
    else ∃ e, encId e = enc ∧
      match decodeText e (operand s) with
      | .parse pos => CompletesKeeping (exec (.decode enc) s) s .parse { r1 := BitVec.ofNat 32 pos } []
      | .ok out used =>
        CompletesKeeping (exec (.decode enc) s) s .ok { r0 := BitVec.ofNat 32 out.length, r1 := BitVec.ofNat 32 used } out

/-- R424: DETECT_ENC answers the detected encoding with OK, or 0xFFFFFFFF with NOT_FOUND. -/
def Obligations.DetectEncEffect : Prop :=
  FieldsChecked .detectEnc ∧
  ∀ s : State,
    if RunsPast s s.arg1 s.arg0 then CompletesKeeping (exec .detectEnc s) s .badRange {} []
    else match detectEnc (operand s) with
      | some e => CompletesKeeping (exec .detectEnc s) s .ok { r0 := BitVec.ofNat 32 (encId e) } []
      | none => CompletesKeeping (exec .detectEnc s) s .notFound { r0 := 0xFFFFFFFF } []

/-! ## The registry -/

/-- R1302: REG_SIZE answers the digest length. -/
def Obligations.RegSizeEffect : Prop :=
  FieldsChecked .regSize ∧
  (∀ (s : State) (alg : Nat), 17 ≤ alg → CompletesKeeping (exec (.regSize alg) s) s .badAlg {} []) ∧
  ∀ (s : State) (a : Alg),
    CompletesKeeping (exec (.regSize (algId a)) s) s .ok { r0 := BitVec.ofNat 32 (digestLen a) } []

/-- R1303: REG_NAME writes the canonical name to OBUF. -/
def Obligations.RegNameEffect : Prop :=
  FieldsChecked .regName ∧
  (∀ (s : State) (alg : Nat), 17 ≤ alg → CompletesKeeping (exec (.regName alg) s) s .badAlg {} []) ∧
  ∀ (s : State) (a : Alg),
    CompletesKeeping (exec (.regName (algId a)) s) s .ok { r0 := BitVec.ofNat 32 (algName a).length } (algName a)

/-- R1304: REG_FROM_NAME answers the algorithm whose canonical name is exactly the operand; at most one has it. -/
def Obligations.RegFromNameEffect : Prop :=
  FieldsChecked .regFromName ∧
  ∀ s : State,
    (RunsPast s s.arg1 s.arg0 → CompletesKeeping (exec .regFromName s) s .badRange {} []) ∧
    (¬RunsPast s s.arg1 s.arg0 →
      (∀ a, algName a = operand s →
        CompletesKeeping (exec .regFromName s) s .ok { r0 := BitVec.ofNat 32 (algId a) } []) ∧
      ((∀ a, algName a ≠ operand s) → CompletesKeeping (exec .regFromName s) s .notFound { r0 := 0xFFFFFFFF } []))

/-- R1306: DETECT_ALG answers the first algorithm in identifier order whose digest of the message, with the message's length as the
declared size, is the candidate digest. (Unwritten bytes of the two operands are of two drawings: notes/assumptions/13.md.) -/
def Obligations.DetectAlgEffect : Prop :=
  FieldsChecked .detectAlg ∧
  ∀ s : State,
    (RunsPast s s.arg1 s.arg0 ∨ RunsPast s s.arg3 s.arg2 → CompletesKeeping (exec .detectAlg s) s .badRange {} []) ∧
    (¬(RunsPast s s.arg1 s.arg0 ∨ RunsPast s s.arg3 s.arg2) →
      let m := operand s
      let d := operandBytes s (s.draws + 1) s.arg3 s.arg2
      (∀ a, digest a m (BitVec.ofNat 64 m.length) = d → (∀ b, algId b < algId a → digest b m (BitVec.ofNat 64 m.length) ≠ d) →
        CompletesUsingScratch (exec .detectAlg s) s .ok { r0 := BitVec.ofNat 32 (algId a) } []) ∧
      ((∀ a, digest a m (BitVec.ofNat 64 m.length) ≠ d) →
        CompletesUsingScratch (exec .detectAlg s) s .notFound { r0 := 0xFFFFFFFF } []))

/-- Detection finds the algorithm of every digest it is given, up to a coincidence with a lower identifier; and the MD4 digest of a message
of at most CHUNK bytes, which is also its ED2K digest, is reported as MD4 (R1306). -/
def Obligations.DetectionFinds : Prop :=
  (∀ (a : Alg) (m : Bytes), m.length < 2 ^ 64 →
    ∃ b, detectAlg m (digest a m (BitVec.ofNat 64 m.length)) = some b ∧ algId b ≤ algId a ∧
      digest b m (BitVec.ofNat 64 m.length) = digest a m (BitVec.ofNat 64 m.length)) ∧
  ∀ m : Bytes, m.length ≤ 9728000 → detectAlg m (digest .ed2k m (BitVec.ofNat 64 m.length)) = some .md4

/-! ## The host's window -/

/-- R1500: what hardware reset leaves, for any parameters: every row of the rule, with IBUF and OBUF holding no defined value and no command
in progress; ID, CAPS, BUFSZ and the registers as a host reads them. The registry is constant in the model. -/
def Obligations.ResetState : Prop :=
  (∀ p : Config.Params, IsResetBut p (resetWith p) ∧
    (∀ draw k, ibufByte (resetWith p) draw k = Config.freeByte draw (ibufBase + k)) ∧
    (∀ s : State, s.params = p → IsResetBut p (hostEvent s .hardReset) ∧
      ∀ draw k, ibufByte (hostEvent s .hardReset) draw k = Config.freeByte draw (ibufBase + k))) ∧
  (∀ p : Config.Params, p.wf → readBack (resetWith p) 0x000 .w32 = 0x51464831 ∧
    (readBack (resetWith p) 0x004 .w32).toNat = p.nsess + 17 * 2 ^ 8 + 6 * 2 ^ 16 ∧
    (readBack (resetWith p) 0x008 .w32).toNat = p.ibufSize + p.obufSize * 2 ^ 16 ∧
    ∀ off, off ∈ [0x00C, 0x010, 0x014, 0x018, 0x01C, 0x020, 0x024, 0x028, 0x02C, 0x030, 0x034, 0x038, 0x03C] →
      readBack (resetWith p) off .w32 = 0) ∧
  State.reset = resetWith Config.defaultParams ∧
  readBack State.reset 0x004 .w32 = 0x00061104 ∧ readBack State.reset 0x008 .w32 = 0x20001000

/-- R1502: the soft reset, accepted at any time: every row of R1500 but IBUF's is at its reset value, IBUF keeps its contents, and a
command in progress has none of its effects; a write of 0 to the bit does nothing (R112). -/
def Obligations.SoftReset : Prop :=
  ∀ (s : State) (v : W32),
    (v.getLsbD 0 = true → IsResetBut s.params (hostEvent s (.write 0x03C .w32 v)) ∧
      ∀ draw k, ibufByte (hostEvent s (.write 0x03C .w32 v)) draw k = ibufByte s draw k) ∧
    (v.getLsbD 0 = false → hostEvent s (.write 0x03C .w32 v) = s)

/-- An access the window does not admit is not performed: a read returns 0, a write changes nothing, and AERR is set (R205). That an
access astride the end of a buffer is not admitted, and that an unadmitted access while BUSY = 1 leaves OVR as it was, are the
model's readings (notes/assumptions/8.md, 7.md). -/
def Obligations.UnadmittedAccess : Prop :=
  ∀ (s : State) (off : BitVec 14) (w : Width),
    (¬(RegAccess off.toNat w ∨ IbufAccess s.params off.toNat w ∨ ObufAccess s.params off.toNat w) →
      ∃ d, hostEvent s (.read off w) = { s with status := { s.status with aerr := true }, rdata := 0, draws := d }) ∧
    (¬(RegAccess off.toNat w ∨ IbufAccess s.params off.toNat w) →
      ∀ v, hostEvent s (.write off w v) = { s with status := { s.status with aerr := true } })

/-- R204: the byte order of the buffers. A write to IBUF stores its bytes least significant first and no other byte, a read of the same
width returns the value, and a byte read of any of its bytes returns that byte; a read of OBUF assembles its bytes the same way. -/
def Obligations.BufferByteOrder : Prop :=
  (∀ (s : State) (off : BitVec 14) (w : Width) (v : W32), s.params.wf → s.status.busy = false →
    IbufAccess s.params off.toNat w →
    (∀ draw i, i < accessBytes w →
      ibufByte (hostEvent s (.write off w v)) draw (off.toNat - 0x1000 + i) = BitVec.ofNat 8 (v.toNat / 2 ^ (8 * i))) ∧
    (∀ draw k, k < off.toNat - 0x1000 ∨ off.toNat - 0x1000 + accessBytes w ≤ k →
      ibufByte (hostEvent s (.write off w v)) draw k = ibufByte s draw k) ∧
    hostEvent s (.write off w v) = { s with ibuf := (hostEvent s (.write off w v)).ibuf } ∧
    (readBack (hostEvent s (.write off w v)) off.toNat w).toNat = v.toNat % 2 ^ (8 * accessBytes w) ∧
    ∀ i, i < accessBytes w →
      (readBack (hostEvent s (.write off w v)) (off.toNat + i) .w8).toNat = v.toNat / 2 ^ (8 * i) % 256) ∧
  ∀ (s : State) (off : BitVec 14) (w : Width), s.params.wf → s.status.busy = false → ObufAccess s.params off.toNat w →
    (readBack s off.toNat w).toNat < 2 ^ (8 * accessBytes w) ∧
    ∀ i, i < accessBytes w →
      (readBack s off.toNat w).toNat / 2 ^ (8 * i) % 256 = (obufByte s s.draws (off.toNat - 0x2000 + i)).toNat

/-- Reads have no side effect (R206): a read changes nothing of the machine but AERR, and an admitted read not even that. The
value returned and the count of drawings are the model's own fields (notes/assumptions/2.md, 5.md). -/
def Obligations.ReadsHaveNoSideEffect : Prop :=
  ∀ (s : State) (off : BitVec 14) (w : Width),
    (∃ b v d, hostEvent s (.read off w) = { s with status := { s.status with aerr := b }, rdata := v, draws := d }) ∧
    (RegAccess off.toNat w ∨ IbufAccess s.params off.toNat w ∨ ObufAccess s.params off.toNat w →
      ∃ v d, hostEvent s (.read off w) = { s with rdata := v, draws := d })

/-- The registers read as R102 to R112 say while no command runs, field by field. -/
def Obligations.RegistersRead : Prop :=
  ∀ s : State, s.params.wf → s.status.busy = false →
    readBack s 0x000 .w32 = 0x51464831 ∧
    (readBack s 0x004 .w32).toNat = s.params.nsess + 17 * 2 ^ 8 + 6 * 2 ^ 16 ∧
    (readBack s 0x008 .w32).toNat = s.params.ibufSize + s.params.obufSize * 2 ^ 16 ∧
    readBack s 0x00C .w32 = 0 ∧
    (readBack s 0x010 .w32).toNat = s.status.done.toNat * 2 + s.status.err.toNat * 4 + s.status.ovr.toNat * 8 +
      s.status.aerr.toNat * 16 + (codeByte s.status.code).toNat * 2 ^ 8 ∧
    readBack s 0x014 .w32 = s.arg0 ∧ readBack s 0x018 .w32 = s.arg1 ∧ readBack s 0x01C .w32 = s.arg2 ∧
    readBack s 0x020 .w32 = s.arg3 ∧
    readBack s 0x024 .w32 = s.res0 ∧ readBack s 0x028 .w32 = s.res1 ∧ readBack s 0x02C .w32 = s.res2 ∧
    readBack s 0x030 .w32 = s.res3 ∧ (readBack s 0x034 .w32).toNat = s.olen.toNat ∧
    (readBack s 0x038 .w32).toNat = s.doneIe.toNat + 2 * s.errIe.toNat ∧ readBack s 0x03C .w32 = 0

/-- Writes to the registers (R101, R105, R106, R108, R111) while no command runs: CMD latches the word and sets BUSY, the ARG registers
store, STATUS clears the flags whose bit is 1, IRQEN takes bits 0 and 1, and the read-only registers ignore the write. The time
drawn for the command is the model's own (notes/assumptions/3.md). -/
def Obligations.RegistersWrite : Prop :=
  ∀ (s : State) (v : W32), s.status.busy = false →
    (∃ n d, hostEvent s (.write 0x00C .w32 v) =
      { s with pcmd := v, status := { s.status with busy := true }, wait := n, draws := d }) ∧
    hostEvent s (.write 0x014 .w32 v) = { s with arg0 := v } ∧ hostEvent s (.write 0x018 .w32 v) = { s with arg1 := v } ∧
    hostEvent s (.write 0x01C .w32 v) = { s with arg2 := v } ∧ hostEvent s (.write 0x020 .w32 v) = { s with arg3 := v } ∧
    hostEvent s (.write 0x010 .w32 v) =
      { s with status := { s.status with done := s.status.done && !v.getLsbD 1, err := s.status.err && !v.getLsbD 2,
                                         ovr := s.status.ovr && !v.getLsbD 3, aerr := s.status.aerr && !v.getLsbD 4 } } ∧
    hostEvent s (.write 0x038 .w32 v) = { s with doneIe := v.getLsbD 0, errIe := v.getLsbD 1 } ∧
    ∀ off : BitVec 14, off ∈ [0x000#14, 0x004#14, 0x008#14, 0x024#14, 0x028#14, 0x02C#14, 0x030#14, 0x034#14] →
      hostEvent s (.write off .w32 v) = s

/-- R1510: while BUSY = 1 a write to CMD, ARG0..ARG3 or any IBUF byte is dropped and sets OVR, and writes to STATUS, IRQEN and CTRL are
performed. -/
def Obligations.WritesWhileBusy : Prop :=
  ∀ (s : State) (v : W32), s.status.busy = true →
    (∀ off : BitVec 14, off ∈ [0x00C#14, 0x014#14, 0x018#14, 0x01C#14, 0x020#14] →
      hostEvent s (.write off .w32 v) = { s with status := { s.status with ovr := true } }) ∧
    (∀ (off : BitVec 14) (w : Width), IbufAccess s.params off.toNat w →
      hostEvent s (.write off w v) = { s with status := { s.status with ovr := true } }) ∧
    hostEvent s (.write 0x010 .w32 v) =
      { s with status := { s.status with done := s.status.done && !v.getLsbD 1, err := s.status.err && !v.getLsbD 2,
                                         ovr := s.status.ovr && !v.getLsbD 3, aerr := s.status.aerr && !v.getLsbD 4 } } ∧
    hostEvent s (.write 0x038 .w32 v) = { s with doneIe := v.getLsbD 0, errIe := v.getLsbD 1 } ∧
    (v.getLsbD 0 = true → IsResetBut s.params (hostEvent s (.write 0x03C .w32 v))) ∧
    (v.getLsbD 0 = false → hostEvent s (.write 0x03C .w32 v) = s)

/-- While BUSY = 1, reads of ID, CAPS, BUFSZ, ARG0..ARG3, IRQEN, IBUF and the flags of STATUS return the values that stand (R1511): the
values that the same machine would return with BUSY = 0, and BUSY itself as 1. That bits 7:5 of STATUS read as 0 then too is the
model's reading (notes/assumptions/6.md). -/
def Obligations.ReadsWhileBusy : Prop :=
  ∀ s : State, s.status.busy = true →
    (∀ off, off ∈ [0x000, 0x004, 0x008, 0x014, 0x018, 0x01C, 0x020, 0x038] →
      readBack s off .w32 = readBack { s with status := { s.status with busy := false } } off .w32) ∧
    (∀ (off : Nat) (w : Width), s.params.wf → IbufAccess s.params off w →
      readBack s off w = readBack { s with status := { s.status with busy := false } } off w) ∧
    (readBack s 0x010 .w32).toNat % 2 ^ 8 = 1 + s.status.done.toNat * 2 + s.status.err.toNat * 4 +
      s.status.ovr.toNat * 8 + s.status.aerr.toNat * 16

/-- R107: DONE, ERR, OVR and AERR are sticky: a step that clears one is a host write of 1 to the bit or a reset; and every completed
command overwrites CODE: the state it leaves is the same whatever CODE held. -/
def Obligations.StickyFlags : Prop :=
  ∀ s t : State, Machine.step s = .next t →
    (s.status.done = true → t.status.done = false → ∃ e, eventOf s = some e ∧ (IsReset e ∨ ClearsStatusBit e 1)) ∧
    (s.status.err = true → t.status.err = false → ∃ e, eventOf s = some e ∧ (IsReset e ∨ ClearsStatusBit e 2)) ∧
    (s.status.ovr = true → t.status.ovr = false → ∃ e, eventOf s = some e ∧ (IsReset e ∨ ClearsStatusBit e 3)) ∧
    (s.status.aerr = true → t.status.aerr = false → ∃ e, eventOf s = some e ∧ (IsReset e ∨ ClearsStatusBit e 4)) ∧
    (CompletionStep s t → ∀ c, Machine.step { s with status := { s.status with code := c } } = .next t)

/-- The interrupt line (R1420) is (DONE & DONE_IE) | (ERR & ERR_IE), and it stays asserted until the host clears a STATUS bit or an
enable bit that drives it, or resets the machine: a bit drives the line when its flag and its enable are both 1. -/
def Obligations.InterruptLine : Prop :=
  (∀ s : State, irqLine s = true ↔
    (s.status.done = true ∧ s.doneIe = true) ∨ (s.status.err = true ∧ s.errIe = true)) ∧
  ∀ s t : State, Machine.step s = .next t → irqLine s = true → irqLine t = false →
    ∃ e, eventOf s = some e ∧
      (IsReset e ∨ (s.status.done = true ∧ s.doneIe = true ∧ ClearsStatusBit e 1) ∨
        (s.status.err = true ∧ s.errIe = true ∧ ClearsStatusBit e 2) ∨
        ∃ v, IsRegWrite e 0x038 v ∧
          ((s.status.done = true ∧ s.doneIe = true ∧ v.getLsbD 0 = false) ∨
            (s.status.err = true ∧ s.errIe = true ∧ v.getLsbD 1 = false)))

/-- A command sees the operands that stood when it was accepted (R211, R1510): while a command runs, no step changes PCMD, ARG0..ARG3,
IBUF, any slot or SCR, unless it ends the command. That the time left goes down by one is the model's choice
(notes/assumptions/3.md). -/
def Obligations.OperandsStable : Prop :=
  ∀ s t : State, s.status.busy = true → Machine.step s = .next t → t.status.busy = true →
    t.params = s.params ∧ t.pcmd = s.pcmd ∧ t.arg0 = s.arg0 ∧ t.arg1 = s.arg1 ∧ t.arg2 = s.arg2 ∧ t.arg3 = s.arg3 ∧
    t.ibuf = s.ibuf ∧ t.slots = s.slots ∧ t.scr = s.scr ∧ t.wait + 1 = s.wait

/-- BUSY stays 1 for a finite time (R1513): whatever the host does, a running command is no longer running after as many steps as the
time drawn for it, and one more. That the time is counted in steps is the model's choice (notes/assumptions/3.md). -/
def Obligations.BusyEnds : Prop :=
  ∀ s : State, s.status.busy = true →
    ∃ k t, k ≤ s.wait + 1 ∧ Sys2Proof.core.run k s = .next t ∧ t.status.busy = false

/-- A whole assembler line runs its command (R315, R316, R105): from an idle machine whose host issues the line, the machine reaches, in
finitely many steps and whatever time the command takes, the state that the command's meaning gives over the line's ARG values,
with BUSY read as 0 by the line's WAIT and the host ready for what follows. The queue of the host's events and the counting of
time in steps are the model's choice (notes/assumptions/3.md, 5.md), and so is the cutting of a key's value wider than its register
(notes/assumptions/15.md). -/
def Obligations.LineRuns : Prop :=
  ∀ (s : State) (i : Instr) (keys : List (AsmKey × Nat)) (rest : List HostEvent), s.status.busy = false → i.wf = true →
    s.hostQueue = asmLine i keys ++ rest →
    ∃ k x d u, exec i { keys.foldl withKey s with
                          pcmd := Sys2Proof.encode i, status := { s.status with busy := true }, wait := 0,
                          hostQueue := .waitIdle :: rest, rdata := x, draws := d } = .next u ∧
      Sys2Proof.core.run k s =
        .next { u with hostQueue := rest, rdata := statusWord u.status, draws := u.draws + 1 }

/-! ## Invariants -/

/-- Every step keeps the invariant of the machine: parameters in range, both buffers in canonical form, OBUF listing exactly
OBUF[0..OLEN), NSESS slots, and in every slot a context for each enabled algorithm and no other, each of its kind's shape and
having absorbed exactly TOTAL bytes (R9, R110, R115, R116, R118, R134, R501). That a Merkle level whose bit is 0 is kept empty is
the model's choice (notes/assumptions/11.md). -/
def Obligations.InvariantKeptByStep : Prop := ∀ s t : State, Safety.Inv s → Machine.step s = .next t → Safety.Inv t

/-- The invariant holds after reset, for every admitted choice of the parameters. -/
def Obligations.InvariantHoldsAtReset : Prop := (∀ p : Config.Params, p.wf → Safety.Inv (resetWith p)) ∧ Safety.Inv State.reset
end

