-- ==== Sys2Proof/Laws/Memory.lean ====
section
/-! SUPPORT. The byte memories: read after write, the canonical form and its preservation by every memory operation. -/

namespace Sys2Proof.Machine

/-! ## Reading -/

@[simp] theorem memGet_nil (a : Nat) : memGet [] a = none := rfl

/-- A cell reads as what was stored in it, and every other cell as before. -/
theorem memGet_memSet (m : Memory) (a b : Nat) (v : Byte) :
    memGet (memSet m a v) b = if b = a then some v else memGet m b := by
  induction m with
  | nil => simp [memSet, memGet]
  | cons c rest ih =>
    obtain ⟨x, u⟩ := c
    simp only [memSet]
    by_cases h1 : a < x
    · rw [if_pos h1]; simp only [memGet]
    · rw [if_neg h1]
      by_cases h2 : a = x
      · subst h2; rw [if_pos rfl]; simp only [memGet]; by_cases h3 : b = a <;> simp [h3]
      · rw [if_neg h2]; simp only [memGet, ih]
        by_cases h3 : b = x
        · subst h3; rw [if_pos rfl, if_pos rfl, if_neg (fun h => h2 h.symm)]
        · rw [if_neg h3, if_neg h3]

/-- Storing a byte string writes its bytes at consecutive addresses and leaves every other cell as it was. -/
theorem memGet_memStore (vs : Bytes) : ∀ (m : Memory) (a b : Nat),
    memGet (memStore m a vs) b = if a ≤ b ∧ b < a + vs.length then vs[b - a]? else memGet m b := by
  induction vs with
  | nil => intro m a b; rw [memStore, if_neg (by simp)]
  | cons v vs ih =>
    intro m a b
    rw [memStore, ih, memGet_memSet]
    simp only [List.length_cons]
    by_cases h1 : b = a
    · subst h1
      rw [if_neg (by omega), if_pos rfl, if_pos (by omega)]
      simp
    · by_cases h2 : a + 1 ≤ b ∧ b < a + 1 + vs.length
      · rw [if_pos h2, if_pos (by omega), show b - a = (b - (a + 1)) + 1 by omega, List.getElem?_cons_succ]
      · rw [if_neg h2, if_neg h1, if_neg (by omega)]

/-- The memory of a byte string holds exactly its bytes. -/
theorem memGet_memOf (vs : Bytes) : ∀ (a b : Nat),
    memGet (memOf a vs) b = if a ≤ b then vs[b - a]? else none := by
  induction vs with
  | nil => intro a b; simp [memOf]
  | cons v vs ih =>
    intro a b
    simp only [memOf, memGet, ih]
    by_cases h1 : b = a
    · subst h1; simp
    · rw [if_neg h1]
      by_cases h2 : a ≤ b
      · rw [if_pos (by omega), if_pos h2, show b - a = (b - (a + 1)) + 1 by omega, List.getElem?_cons_succ]
      · rw [if_neg (by omega), if_neg h2]

/-! ## The canonical form -/

theorem risesAbove_mono {lo lo' : Nat} {m : Memory} (h : lo' ≤ lo) (hm : risesAbove lo m = true) :
    risesAbove lo' m = true := by
  cases m with
  | nil => rfl
  | cons c rest =>
    simp only [risesAbove, Bool.and_eq_true, decide_eq_true_eq] at hm ⊢
    exact ⟨by omega, hm.2⟩

theorem risesAbove_memSet {m : Memory} : ∀ {lo a : Nat} {v : Byte}, risesAbove lo m = true → lo < a →
    risesAbove lo (memSet m a v) = true := by
  induction m with
  | nil => intro lo a v _ h; simp [memSet, risesAbove, h]
  | cons c rest ih =>
    intro lo a v hm h
    obtain ⟨x, u⟩ := c
    simp only [risesAbove, Bool.and_eq_true, decide_eq_true_eq] at hm
    simp only [memSet]
    by_cases h1 : a < x
    · rw [if_pos h1]; simp [risesAbove, h, h1, hm.2]
    · rw [if_neg h1]
      by_cases h2 : a = x
      · subst h2; rw [if_pos rfl]; simp [risesAbove, h, hm.2]
      · rw [if_neg h2]; simp [risesAbove, hm.1, ih hm.2 (show x < a by omega)]

/-- A byte store keeps the canonical form. -/
theorem wf_memSet {m : Memory} {a : Nat} {v : Byte} (hm : Memory.wf m = true) : Memory.wf (memSet m a v) = true := by
  cases m with
  | nil => rfl
  | cons c rest =>
    obtain ⟨x, u⟩ := c
    simp only [Memory.wf] at hm
    simp only [memSet]
    by_cases h1 : a < x
    · rw [if_pos h1]; simp [Memory.wf, risesAbove, h1, hm]
    · rw [if_neg h1]
      by_cases h2 : a = x
      · subst h2; rw [if_pos rfl]; simpa [Memory.wf] using hm
      · rw [if_neg h2]; simp only [Memory.wf]; exact risesAbove_memSet hm (by omega)

/-- A store of a byte string keeps the canonical form. -/
theorem wf_memStore (vs : Bytes) : ∀ {m : Memory} {a : Nat}, Memory.wf m = true → Memory.wf (memStore m a vs) = true := by
  induction vs with
  | nil => intro m a hm; exact hm
  | cons v vs ih => intro m a hm; exact ih (wf_memSet hm)

theorem risesAbove_memOf (vs : Bytes) : ∀ {lo a : Nat}, lo < a → risesAbove lo (memOf a vs) = true := by
  induction vs with
  | nil => intro lo a _; rfl
  | cons v vs ih => intro lo a h; simp [memOf, risesAbove, h, ih (Nat.lt_succ_self a)]

/-- The memory of a byte string is in canonical form. -/
theorem wf_memOf (a : Nat) (vs : Bytes) : Memory.wf (memOf a vs) = true := by
  cases vs with
  | nil => rfl
  | cons v vs => exact risesAbove_memOf vs (Nat.lt_succ_self a)

/-- The memory of a byte string lists consecutive addresses. -/
theorem map_fst_memOf (vs : Bytes) : ∀ (a : Nat), (memOf a vs).map Prod.fst = List.range' a vs.length := by
  induction vs with
  | nil => intro a; rfl
  | cons v vs ih => intro a; simp [memOf, ih, List.range'_succ]

/-- The addresses a byte store lists: the one stored to, and those listed before. -/
theorem mem_memSet {m : Memory} {a : Nat} {v : Byte} {c : Host.Cell} (h : c ∈ memSet m a v) : c = (a, v) ∨ c ∈ m := by
  induction m with
  | nil => simpa [memSet] using h
  | cons d rest ih =>
    obtain ⟨x, u⟩ := d
    simp only [memSet] at h
    by_cases h1 : a < x
    · rw [if_pos h1] at h; simpa using h
    · rw [if_neg h1] at h
      by_cases h2 : a = x
      · rw [if_pos h2] at h
        rcases List.mem_cons.1 h with h | h
        · exact .inl h
        · exact .inr (List.mem_cons_of_mem _ h)
      · rw [if_neg h2] at h
        rcases List.mem_cons.1 h with h | h
        · exact .inr (by simp [h])
        · rcases ih h with h | h
          · exact .inl h
          · exact .inr (List.mem_cons_of_mem _ h)

/-- The addresses a string store lists: those of the string, and those listed before. -/
theorem mem_memStore (vs : Bytes) : ∀ {m : Memory} {a : Nat} {c : Host.Cell}, c ∈ memStore m a vs →
    (a ≤ c.1 ∧ c.1 < a + vs.length) ∨ c ∈ m := by
  induction vs with
  | nil => intro m a c h; exact .inr h
  | cons v vs ih =>
    intro m a c h
    simp only [List.length_cons]
    rcases ih h with h | h
    · exact .inl ⟨by omega, by omega⟩
    · rcases mem_memSet h with h | h
      · subst h; exact .inl ⟨Nat.le_refl _, by simp⟩
      · exact .inr h

/-! ## The buffers after the named operations -/

@[simp] theorem obufByte_complete (s : State) (c : Code) (r : Results) (out : Bytes) (draw k : Nat) :
    obufByte (s.complete c r out) draw k = out.getD k (Config.freeByte draw (obufBase + k)) := by
  show (memGet (memOf 0 out) k).getD _ = _
  rw [memGet_memOf]
  simp [List.getD_eq_getElem?_getD]

@[simp] theorem ibufByte_complete (s : State) (c : Code) (r : Results) (out : Bytes) (draw k : Nat) :
    ibufByte (s.complete c r out) draw k = ibufByte s draw k := rfl

@[simp] theorem ibufByte_setSlot (s : State) (sid : Nat) (sl : Slot) (draw k : Nat) :
    ibufByte (s.setSlot sid sl) draw k = ibufByte s draw k := rfl

/-! ## The operand of a command -/

@[simp] theorem length_operandBytes (s : State) (draw : Nat) (off len : W32) :
    (operandBytes s draw off len).length = len.toNat := by simp [operandBytes]

theorem getElem?_operandBytes (s : State) (draw : Nat) (off len : W32) {i : Nat} (h : i < len.toNat) :
    (operandBytes s draw off len)[i]? = some (ibufByte s draw (off.toNat + i)) := by
  simp [operandBytes, h]

end Sys2Proof.Machine
end

