-- ==== Sys2Proof/Laws/State.lean ====
section
/-! SUPPORT. What each named update of the state does to each field, true by `rfl` and tagged `simp`, so that no later proof unfolds a
record update. -/

namespace Sys2Proof.Machine

/-! ## Completion -/

@[simp] theorem State.complete_params (s : State) (c : Code) (r : Results) (out : Bytes) : (s.complete c r out).params = s.params := rfl
@[simp] theorem State.complete_status (s : State) (c : Code) (r : Results) (out : Bytes) : (s.complete c r out).status = statusComplete s.status c := rfl
@[simp] theorem State.complete_arg0 (s : State) (c : Code) (r : Results) (out : Bytes) : (s.complete c r out).arg0 = s.arg0 := rfl
@[simp] theorem State.complete_arg1 (s : State) (c : Code) (r : Results) (out : Bytes) : (s.complete c r out).arg1 = s.arg1 := rfl
@[simp] theorem State.complete_arg2 (s : State) (c : Code) (r : Results) (out : Bytes) : (s.complete c r out).arg2 = s.arg2 := rfl
@[simp] theorem State.complete_arg3 (s : State) (c : Code) (r : Results) (out : Bytes) : (s.complete c r out).arg3 = s.arg3 := rfl
@[simp] theorem State.complete_res0 (s : State) (c : Code) (r : Results) (out : Bytes) : (s.complete c r out).res0 = r.r0 := rfl
@[simp] theorem State.complete_res1 (s : State) (c : Code) (r : Results) (out : Bytes) : (s.complete c r out).res1 = r.r1 := rfl
@[simp] theorem State.complete_res2 (s : State) (c : Code) (r : Results) (out : Bytes) : (s.complete c r out).res2 = r.r2 := rfl
@[simp] theorem State.complete_res3 (s : State) (c : Code) (r : Results) (out : Bytes) : (s.complete c r out).res3 = r.r3 := rfl
@[simp] theorem State.complete_olen (s : State) (c : Code) (r : Results) (out : Bytes) : (s.complete c r out).olen = BitVec.ofNat 16 out.length := rfl
@[simp] theorem State.complete_doneIe (s : State) (c : Code) (r : Results) (out : Bytes) : (s.complete c r out).doneIe = s.doneIe := rfl
@[simp] theorem State.complete_errIe (s : State) (c : Code) (r : Results) (out : Bytes) : (s.complete c r out).errIe = s.errIe := rfl
@[simp] theorem State.complete_pcmd (s : State) (c : Code) (r : Results) (out : Bytes) : (s.complete c r out).pcmd = s.pcmd := rfl
@[simp] theorem State.complete_ibuf (s : State) (c : Code) (r : Results) (out : Bytes) : (s.complete c r out).ibuf = s.ibuf := rfl
@[simp] theorem State.complete_obuf (s : State) (c : Code) (r : Results) (out : Bytes) : (s.complete c r out).obuf = memOf 0 out := rfl
@[simp] theorem State.complete_slots (s : State) (c : Code) (r : Results) (out : Bytes) : (s.complete c r out).slots = s.slots := rfl
@[simp] theorem State.complete_scr (s : State) (c : Code) (r : Results) (out : Bytes) : (s.complete c r out).scr = s.scr := rfl
@[simp] theorem State.complete_wait (s : State) (c : Code) (r : Results) (out : Bytes) : (s.complete c r out).wait = s.wait := rfl
@[simp] theorem State.complete_draws (s : State) (c : Code) (r : Results) (out : Bytes) : (s.complete c r out).draws = s.draws + 2 := rfl
@[simp] theorem State.complete_hostQueue (s : State) (c : Code) (r : Results) (out : Bytes) : (s.complete c r out).hostQueue = s.hostQueue := rfl
@[simp] theorem State.complete_rdata (s : State) (c : Code) (r : Results) (out : Bytes) : (s.complete c r out).rdata = s.rdata := rfl

/-! ## Setting a slot -/

@[simp] theorem State.setSlot_params (s : State) (sid : Nat) (sl : Slot) : (s.setSlot sid sl).params = s.params := rfl
@[simp] theorem State.setSlot_status (s : State) (sid : Nat) (sl : Slot) : (s.setSlot sid sl).status = s.status := rfl
@[simp] theorem State.setSlot_arg0 (s : State) (sid : Nat) (sl : Slot) : (s.setSlot sid sl).arg0 = s.arg0 := rfl
@[simp] theorem State.setSlot_arg1 (s : State) (sid : Nat) (sl : Slot) : (s.setSlot sid sl).arg1 = s.arg1 := rfl
@[simp] theorem State.setSlot_arg2 (s : State) (sid : Nat) (sl : Slot) : (s.setSlot sid sl).arg2 = s.arg2 := rfl
@[simp] theorem State.setSlot_arg3 (s : State) (sid : Nat) (sl : Slot) : (s.setSlot sid sl).arg3 = s.arg3 := rfl
@[simp] theorem State.setSlot_res0 (s : State) (sid : Nat) (sl : Slot) : (s.setSlot sid sl).res0 = s.res0 := rfl
@[simp] theorem State.setSlot_res1 (s : State) (sid : Nat) (sl : Slot) : (s.setSlot sid sl).res1 = s.res1 := rfl
@[simp] theorem State.setSlot_res2 (s : State) (sid : Nat) (sl : Slot) : (s.setSlot sid sl).res2 = s.res2 := rfl
@[simp] theorem State.setSlot_res3 (s : State) (sid : Nat) (sl : Slot) : (s.setSlot sid sl).res3 = s.res3 := rfl
@[simp] theorem State.setSlot_olen (s : State) (sid : Nat) (sl : Slot) : (s.setSlot sid sl).olen = s.olen := rfl
@[simp] theorem State.setSlot_doneIe (s : State) (sid : Nat) (sl : Slot) : (s.setSlot sid sl).doneIe = s.doneIe := rfl
@[simp] theorem State.setSlot_errIe (s : State) (sid : Nat) (sl : Slot) : (s.setSlot sid sl).errIe = s.errIe := rfl
@[simp] theorem State.setSlot_pcmd (s : State) (sid : Nat) (sl : Slot) : (s.setSlot sid sl).pcmd = s.pcmd := rfl
@[simp] theorem State.setSlot_ibuf (s : State) (sid : Nat) (sl : Slot) : (s.setSlot sid sl).ibuf = s.ibuf := rfl
@[simp] theorem State.setSlot_obuf (s : State) (sid : Nat) (sl : Slot) : (s.setSlot sid sl).obuf = s.obuf := rfl
@[simp] theorem State.setSlot_slots (s : State) (sid : Nat) (sl : Slot) : (s.setSlot sid sl).slots = s.slots.set sid sl := rfl
@[simp] theorem State.setSlot_scr (s : State) (sid : Nat) (sl : Slot) : (s.setSlot sid sl).scr = s.scr := rfl
@[simp] theorem State.setSlot_wait (s : State) (sid : Nat) (sl : Slot) : (s.setSlot sid sl).wait = s.wait := rfl
@[simp] theorem State.setSlot_draws (s : State) (sid : Nat) (sl : Slot) : (s.setSlot sid sl).draws = s.draws := rfl
@[simp] theorem State.setSlot_hostQueue (s : State) (sid : Nat) (sl : Slot) : (s.setSlot sid sl).hostQueue = s.hostQueue := rfl
@[simp] theorem State.setSlot_rdata (s : State) (sid : Nat) (sl : Slot) : (s.setSlot sid sl).rdata = s.rdata := rfl

/-! ## Hardware reset -/

@[simp] theorem State.hardReset_params (s : State) : (s.hardReset).params = s.params := rfl
@[simp] theorem State.hardReset_status (s : State) : (s.hardReset).status = resetStatus := rfl
@[simp] theorem State.hardReset_arg0 (s : State) : (s.hardReset).arg0 = 0 := rfl
@[simp] theorem State.hardReset_arg1 (s : State) : (s.hardReset).arg1 = 0 := rfl
@[simp] theorem State.hardReset_arg2 (s : State) : (s.hardReset).arg2 = 0 := rfl
@[simp] theorem State.hardReset_arg3 (s : State) : (s.hardReset).arg3 = 0 := rfl
@[simp] theorem State.hardReset_res0 (s : State) : (s.hardReset).res0 = 0 := rfl
@[simp] theorem State.hardReset_res1 (s : State) : (s.hardReset).res1 = 0 := rfl
@[simp] theorem State.hardReset_res2 (s : State) : (s.hardReset).res2 = 0 := rfl
@[simp] theorem State.hardReset_res3 (s : State) : (s.hardReset).res3 = 0 := rfl
@[simp] theorem State.hardReset_olen (s : State) : (s.hardReset).olen = 0 := rfl
@[simp] theorem State.hardReset_doneIe (s : State) : (s.hardReset).doneIe = false := rfl
@[simp] theorem State.hardReset_errIe (s : State) : (s.hardReset).errIe = false := rfl
@[simp] theorem State.hardReset_pcmd (s : State) : (s.hardReset).pcmd = 0 := rfl
@[simp] theorem State.hardReset_ibuf (s : State) : (s.hardReset).ibuf = [] := rfl
@[simp] theorem State.hardReset_obuf (s : State) : (s.hardReset).obuf = [] := rfl
@[simp] theorem State.hardReset_slots (s : State) : (s.hardReset).slots = List.replicate s.params.nsess emptySlot := rfl
@[simp] theorem State.hardReset_scr (s : State) : (s.hardReset).scr = none := rfl
@[simp] theorem State.hardReset_wait (s : State) : (s.hardReset).wait = 0 := rfl
@[simp] theorem State.hardReset_draws (s : State) : (s.hardReset).draws = s.draws := rfl
@[simp] theorem State.hardReset_hostQueue (s : State) : (s.hardReset).hostQueue = s.hostQueue := rfl
@[simp] theorem State.hardReset_rdata (s : State) : (s.hardReset).rdata = s.rdata := rfl

/-! ## Soft reset -/

@[simp] theorem State.softReset_params (s : State) : (s.softReset).params = s.params := rfl
@[simp] theorem State.softReset_status (s : State) : (s.softReset).status = resetStatus := rfl
@[simp] theorem State.softReset_arg0 (s : State) : (s.softReset).arg0 = 0 := rfl
@[simp] theorem State.softReset_arg1 (s : State) : (s.softReset).arg1 = 0 := rfl
@[simp] theorem State.softReset_arg2 (s : State) : (s.softReset).arg2 = 0 := rfl
@[simp] theorem State.softReset_arg3 (s : State) : (s.softReset).arg3 = 0 := rfl
@[simp] theorem State.softReset_res0 (s : State) : (s.softReset).res0 = 0 := rfl
@[simp] theorem State.softReset_res1 (s : State) : (s.softReset).res1 = 0 := rfl
@[simp] theorem State.softReset_res2 (s : State) : (s.softReset).res2 = 0 := rfl
@[simp] theorem State.softReset_res3 (s : State) : (s.softReset).res3 = 0 := rfl
@[simp] theorem State.softReset_olen (s : State) : (s.softReset).olen = 0 := rfl
@[simp] theorem State.softReset_doneIe (s : State) : (s.softReset).doneIe = false := rfl
@[simp] theorem State.softReset_errIe (s : State) : (s.softReset).errIe = false := rfl
@[simp] theorem State.softReset_pcmd (s : State) : (s.softReset).pcmd = 0 := rfl
@[simp] theorem State.softReset_ibuf (s : State) : (s.softReset).ibuf = s.ibuf := rfl
@[simp] theorem State.softReset_obuf (s : State) : (s.softReset).obuf = [] := rfl
@[simp] theorem State.softReset_slots (s : State) : (s.softReset).slots = List.replicate s.params.nsess emptySlot := rfl
@[simp] theorem State.softReset_scr (s : State) : (s.softReset).scr = none := rfl
@[simp] theorem State.softReset_wait (s : State) : (s.softReset).wait = 0 := rfl
@[simp] theorem State.softReset_draws (s : State) : (s.softReset).draws = s.draws := rfl
@[simp] theorem State.softReset_hostQueue (s : State) : (s.softReset).hostQueue = s.hostQueue := rfl
@[simp] theorem State.softReset_rdata (s : State) : (s.softReset).rdata = s.rdata := rfl

/-! ## An access the window does not admit -/

@[simp] theorem State.accessError_params (s : State) : (s.accessError).params = s.params := rfl
@[simp] theorem State.accessError_status (s : State) : (s.accessError).status = statusAccessError s.status := rfl
@[simp] theorem State.accessError_arg0 (s : State) : (s.accessError).arg0 = s.arg0 := rfl
@[simp] theorem State.accessError_arg1 (s : State) : (s.accessError).arg1 = s.arg1 := rfl
@[simp] theorem State.accessError_arg2 (s : State) : (s.accessError).arg2 = s.arg2 := rfl
@[simp] theorem State.accessError_arg3 (s : State) : (s.accessError).arg3 = s.arg3 := rfl
@[simp] theorem State.accessError_res0 (s : State) : (s.accessError).res0 = s.res0 := rfl
@[simp] theorem State.accessError_res1 (s : State) : (s.accessError).res1 = s.res1 := rfl
@[simp] theorem State.accessError_res2 (s : State) : (s.accessError).res2 = s.res2 := rfl
@[simp] theorem State.accessError_res3 (s : State) : (s.accessError).res3 = s.res3 := rfl
@[simp] theorem State.accessError_olen (s : State) : (s.accessError).olen = s.olen := rfl
@[simp] theorem State.accessError_doneIe (s : State) : (s.accessError).doneIe = s.doneIe := rfl
@[simp] theorem State.accessError_errIe (s : State) : (s.accessError).errIe = s.errIe := rfl
@[simp] theorem State.accessError_pcmd (s : State) : (s.accessError).pcmd = s.pcmd := rfl
@[simp] theorem State.accessError_ibuf (s : State) : (s.accessError).ibuf = s.ibuf := rfl
@[simp] theorem State.accessError_obuf (s : State) : (s.accessError).obuf = s.obuf := rfl
@[simp] theorem State.accessError_slots (s : State) : (s.accessError).slots = s.slots := rfl
@[simp] theorem State.accessError_scr (s : State) : (s.accessError).scr = s.scr := rfl
@[simp] theorem State.accessError_wait (s : State) : (s.accessError).wait = s.wait := rfl
@[simp] theorem State.accessError_draws (s : State) : (s.accessError).draws = s.draws := rfl
@[simp] theorem State.accessError_hostQueue (s : State) : (s.accessError).hostQueue = s.hostQueue := rfl
@[simp] theorem State.accessError_rdata (s : State) : (s.accessError).rdata = s.rdata := rfl

/-! ## A dropped write -/

@[simp] theorem State.overrun_params (s : State) : (s.overrun).params = s.params := rfl
@[simp] theorem State.overrun_status (s : State) : (s.overrun).status = statusOverrun s.status := rfl
@[simp] theorem State.overrun_arg0 (s : State) : (s.overrun).arg0 = s.arg0 := rfl
@[simp] theorem State.overrun_arg1 (s : State) : (s.overrun).arg1 = s.arg1 := rfl
@[simp] theorem State.overrun_arg2 (s : State) : (s.overrun).arg2 = s.arg2 := rfl
@[simp] theorem State.overrun_arg3 (s : State) : (s.overrun).arg3 = s.arg3 := rfl
@[simp] theorem State.overrun_res0 (s : State) : (s.overrun).res0 = s.res0 := rfl
@[simp] theorem State.overrun_res1 (s : State) : (s.overrun).res1 = s.res1 := rfl
@[simp] theorem State.overrun_res2 (s : State) : (s.overrun).res2 = s.res2 := rfl
@[simp] theorem State.overrun_res3 (s : State) : (s.overrun).res3 = s.res3 := rfl
@[simp] theorem State.overrun_olen (s : State) : (s.overrun).olen = s.olen := rfl
@[simp] theorem State.overrun_doneIe (s : State) : (s.overrun).doneIe = s.doneIe := rfl
@[simp] theorem State.overrun_errIe (s : State) : (s.overrun).errIe = s.errIe := rfl
@[simp] theorem State.overrun_pcmd (s : State) : (s.overrun).pcmd = s.pcmd := rfl
@[simp] theorem State.overrun_ibuf (s : State) : (s.overrun).ibuf = s.ibuf := rfl
@[simp] theorem State.overrun_obuf (s : State) : (s.overrun).obuf = s.obuf := rfl
@[simp] theorem State.overrun_slots (s : State) : (s.overrun).slots = s.slots := rfl
@[simp] theorem State.overrun_scr (s : State) : (s.overrun).scr = s.scr := rfl
@[simp] theorem State.overrun_wait (s : State) : (s.overrun).wait = s.wait := rfl
@[simp] theorem State.overrun_draws (s : State) : (s.overrun).draws = s.draws := rfl
@[simp] theorem State.overrun_hostQueue (s : State) : (s.overrun).hostQueue = s.hostQueue := rfl
@[simp] theorem State.overrun_rdata (s : State) : (s.overrun).rdata = s.rdata := rfl

/-! ## The acceptance of a command -/

@[simp] theorem State.accept_params (s : State) (v : W32) : (s.accept v).params = s.params := rfl
@[simp] theorem State.accept_status (s : State) (v : W32) : (s.accept v).status = statusAccept s.status := rfl
@[simp] theorem State.accept_arg0 (s : State) (v : W32) : (s.accept v).arg0 = s.arg0 := rfl
@[simp] theorem State.accept_arg1 (s : State) (v : W32) : (s.accept v).arg1 = s.arg1 := rfl
@[simp] theorem State.accept_arg2 (s : State) (v : W32) : (s.accept v).arg2 = s.arg2 := rfl
@[simp] theorem State.accept_arg3 (s : State) (v : W32) : (s.accept v).arg3 = s.arg3 := rfl
@[simp] theorem State.accept_res0 (s : State) (v : W32) : (s.accept v).res0 = s.res0 := rfl
@[simp] theorem State.accept_res1 (s : State) (v : W32) : (s.accept v).res1 = s.res1 := rfl
@[simp] theorem State.accept_res2 (s : State) (v : W32) : (s.accept v).res2 = s.res2 := rfl
@[simp] theorem State.accept_res3 (s : State) (v : W32) : (s.accept v).res3 = s.res3 := rfl
@[simp] theorem State.accept_olen (s : State) (v : W32) : (s.accept v).olen = s.olen := rfl
@[simp] theorem State.accept_doneIe (s : State) (v : W32) : (s.accept v).doneIe = s.doneIe := rfl
@[simp] theorem State.accept_errIe (s : State) (v : W32) : (s.accept v).errIe = s.errIe := rfl
@[simp] theorem State.accept_pcmd (s : State) (v : W32) : (s.accept v).pcmd = v := rfl
@[simp] theorem State.accept_ibuf (s : State) (v : W32) : (s.accept v).ibuf = s.ibuf := rfl
@[simp] theorem State.accept_obuf (s : State) (v : W32) : (s.accept v).obuf = s.obuf := rfl
@[simp] theorem State.accept_slots (s : State) (v : W32) : (s.accept v).slots = s.slots := rfl
@[simp] theorem State.accept_scr (s : State) (v : W32) : (s.accept v).scr = s.scr := rfl
@[simp] theorem State.accept_wait (s : State) (v : W32) : (s.accept v).wait = Config.latency s.draws := rfl
@[simp] theorem State.accept_draws (s : State) (v : W32) : (s.accept v).draws = s.draws + 1 := rfl
@[simp] theorem State.accept_hostQueue (s : State) (v : W32) : (s.accept v).hostQueue = s.hostQueue := rfl
@[simp] theorem State.accept_rdata (s : State) (v : W32) : (s.accept v).rdata = s.rdata := rfl

/-! ## The other spellings of a completion -/

@[simp] theorem State.raise_eq (s : State) (c : Code) (info : Results) : s.raise c info = s.complete c info [] := rfl

@[simp] theorem State.output_eq (s : State) (out : Bytes) :
    s.output out = s.complete .ok { r0 := BitVec.ofNat 32 out.length } out := rfl

@[simp] theorem State.found_some (s : State) (n : Nat) :
    s.found (some n) = s.complete .ok { r0 := BitVec.ofNat 32 n } := rfl

@[simp] theorem State.found_none (s : State) : s.found none = s.complete .notFound { r0 := 0xFFFFFFFF } := rfl

@[simp] theorem raised_eq (s : State) (c : Code) (info : Results) : raised s c info = .next (s.complete c info []) := rfl

/-! ## STATUS -/

@[simp] theorem statusComplete_busy (st : Status) (c : Code) : (statusComplete st c).busy = false := rfl
@[simp] theorem statusComplete_done (st : Status) (c : Code) : (statusComplete st c).done = true := rfl
@[simp] theorem statusComplete_err (st : Status) (c : Code) : (statusComplete st c).err = (st.err || codeIsError c) := rfl
@[simp] theorem statusComplete_ovr (st : Status) (c : Code) : (statusComplete st c).ovr = st.ovr := rfl
@[simp] theorem statusComplete_aerr (st : Status) (c : Code) : (statusComplete st c).aerr = st.aerr := rfl
@[simp] theorem statusComplete_code (st : Status) (c : Code) : (statusComplete st c).code = c := rfl

@[simp] theorem statusAccept_busy (st : Status) : (statusAccept st).busy = true := rfl
@[simp] theorem statusAccept_done (st : Status) : (statusAccept st).done = st.done := rfl
@[simp] theorem statusAccept_err (st : Status) : (statusAccept st).err = st.err := rfl
@[simp] theorem statusAccept_ovr (st : Status) : (statusAccept st).ovr = st.ovr := rfl
@[simp] theorem statusAccept_aerr (st : Status) : (statusAccept st).aerr = st.aerr := rfl
@[simp] theorem statusAccept_code (st : Status) : (statusAccept st).code = st.code := rfl

@[simp] theorem statusOverrun_busy (st : Status) : (statusOverrun st).busy = st.busy := rfl
@[simp] theorem statusOverrun_done (st : Status) : (statusOverrun st).done = st.done := rfl
@[simp] theorem statusOverrun_err (st : Status) : (statusOverrun st).err = st.err := rfl
@[simp] theorem statusOverrun_ovr (st : Status) : (statusOverrun st).ovr = true := rfl
@[simp] theorem statusOverrun_aerr (st : Status) : (statusOverrun st).aerr = st.aerr := rfl
@[simp] theorem statusOverrun_code (st : Status) : (statusOverrun st).code = st.code := rfl

@[simp] theorem statusAccessError_busy (st : Status) : (statusAccessError st).busy = st.busy := rfl
@[simp] theorem statusAccessError_done (st : Status) : (statusAccessError st).done = st.done := rfl
@[simp] theorem statusAccessError_err (st : Status) : (statusAccessError st).err = st.err := rfl
@[simp] theorem statusAccessError_ovr (st : Status) : (statusAccessError st).ovr = st.ovr := rfl
@[simp] theorem statusAccessError_aerr (st : Status) : (statusAccessError st).aerr = true := rfl
@[simp] theorem statusAccessError_code (st : Status) : (statusAccessError st).code = st.code := rfl

@[simp] theorem statusWrite_busy (st : Status) (v : W32) : (statusWrite st v).busy = st.busy := rfl
@[simp] theorem statusWrite_done (st : Status) (v : W32) : (statusWrite st v).done = (st.done && !v.getLsbD 1) := rfl
@[simp] theorem statusWrite_err (st : Status) (v : W32) : (statusWrite st v).err = (st.err && !v.getLsbD 2) := rfl
@[simp] theorem statusWrite_ovr (st : Status) (v : W32) : (statusWrite st v).ovr = (st.ovr && !v.getLsbD 3) := rfl
@[simp] theorem statusWrite_aerr (st : Status) (v : W32) : (statusWrite st v).aerr = (st.aerr && !v.getLsbD 4) := rfl
@[simp] theorem statusWrite_code (st : Status) (v : W32) : (statusWrite st v).code = st.code := rfl

end Sys2Proof.Machine
end

