-- ==== Sys2Proof/Laws/Ops.lean ====
section
/-! SUPPORT. One lemma for each shared operation of the commands, saying what it does, and the one inversion lemma of `exec`. -/

namespace Sys2Proof.Machine

/-! ## Identifiers -/

@[simp] theorem algOf_algId (a : Alg) : algOf (algId a) = some a := by cases a <;> rfl

@[simp] theorem encOf_encId (e : Enc) : encOf (encId e) = some e := by cases e <;> rfl

theorem algId_lt (a : Alg) : algId a < 17 := by cases a <;> decide

theorem algId_inj {a b : Alg} (h : algId a = algId b) : a = b := by
  have := congrArg algOf h
  simpa using this

theorem algOf_eq_some {n : Nat} {a : Alg} (h : algOf n = some a) : n = algId a := by
  unfold algOf at h
  split at h <;> first | (cases h; rfl) | cases h

/-- A number names no algorithm exactly from 17 up (R302). -/
theorem algOf_eq_none {n : Nat} : algOf n = none ↔ 17 ≤ n := by
  constructor
  · intro h
    have hd : ∀ k < 17, algOf k ≠ none := by decide
    exact Nat.le_of_not_lt fun hn => hd n hn h
  · intro h
    unfold algOf
    split <;> first | omega | rfl

/-- A number names no encoding exactly from 6 up (R302). -/
theorem encOf_eq_none {n : Nat} : encOf n = none ↔ 6 ≤ n := by
  constructor
  · intro h
    have hd : ∀ k < 6, encOf k ≠ none := by decide
    exact Nat.le_of_not_lt fun hn => hd n hn h
  · intro h
    unfold encOf
    split <;> first | omega | rfl

theorem encOf_eq_some {n : Nat} {e : Enc} (h : encOf n = some e) : n = encId e := by
  unfold encOf at h
  split at h <;> first | (cases h; rfl) | cases h

theorem mem_allAlgs (a : Alg) : a ∈ allAlgs := by cases a <;> decide

/-- The entry of an algorithm in a list made over all algorithms in identifier order. -/
theorem getD_map_allAlgs {α : Type} (f : Alg → Option α) (a : Alg) : (allAlgs.map f).getD (algId a) none = f a := by
  cases a <;> rfl

/-! ## Operands -/

/-- A slot number passes the SID check exactly below NSESS (R302). -/
theorem sidOk_eq (s : State) (sid : Nat) : sidOk s sid = decide (sid < s.params.nsess) := rfl

/-- The range check, as arithmetic without wrap-around (R303). -/
theorem operandOk_eq (s : State) (off len : W32) :
    operandOk s off len = decide (off.toNat + len.toNat ≤ s.params.ibufSize) := rfl

theorem shiftRight_beq_zero (x : W32) (n : Nat) : (x >>> n == 0) = decide (x.toNat < 2 ^ n) := by
  have h : (x >>> n).toNat = x.toNat / 2 ^ n := by simp [Nat.shiftRight_eq_div_pow]
  have hp : 0 < 2 ^ n := Nat.two_pow_pos n
  by_cases hx : x.toNat < 2 ^ n
  · have : x >>> n = 0 := BitVec.eq_of_toNat_eq (by rw [h]; simp [Nat.div_eq_of_lt hx])
    simp [this, hx]
  · have hne : x >>> n ≠ 0 := by
      intro e
      have h0 : (x >>> n).toNat = 0 := by rw [e]; rfl
      rw [h] at h0
      exact hx (by rcases Nat.div_eq_zero_iff.1 h0 with h | h <;> omega)
    rw [beq_false_of_ne hne]; simp [hx]

/-- mask[31:17] = 0 is a bound on ARG0 (R303). -/
theorem maskOk_eq (s : State) : maskOk s = decide (s.arg0.toNat < 2 ^ 17) := shiftRight_beq_zero s.arg0 17

/-- flags[31:1] = 0 is a bound on ARG1 (R303). -/
theorem flagsOk_eq (s : State) : flagsOk s = decide (s.arg1.toNat < 2) := shiftRight_beq_zero s.arg1 1

/-- SIZE_VALID is bit 0 of ARG1 (R303). -/
theorem sizeValid_eq (s : State) : sizeValid s = decide (s.arg1.toNat % 2 = 1) := by
  rw [sizeValid, BitVec.getLsbD, Nat.testBit_zero]

/-- The mask is ARG0 in 17 bits (R303). -/
theorem argMask_eq (s : State) : argMask s = BitVec.ofNat 17 s.arg0.toNat := by
  apply BitVec.eq_of_toNat_eq
  simp [argMask, BitVec.extractLsb'_toNat]

/-- The size is ARG3 : ARG2 (R303). -/
theorem argSize_eq (s : State) : argSize s = BitVec.ofNat 64 (s.arg3.toNat * 2 ^ 32 + s.arg2.toNat) := by
  apply BitVec.eq_of_toNat_eq
  have h := s.arg2.isLt
  have h3 := s.arg3.isLt
  rw [argSize, BitVec.toNat_append, ← Nat.shiftLeft_add_eq_or_of_lt h, Nat.shiftLeft_eq, BitVec.toNat_ofNat]
  exact (Nat.mod_eq_of_lt (by omega)).symm

/-! ## Slots -/

@[simp] theorem slot_complete (s : State) (c : Code) (r : Results) (out : Bytes) (j : Nat) :
    (s.complete c r out).slot j = s.slot j := rfl

theorem slot_setSlot_self (s : State) {sid : Nat} (sl : Slot) (h : sid < s.slots.length) :
    (s.setSlot sid sl).slot sid = sl := by
  simp [State.slot, State.setSlot, List.getD_eq_getElem?_getD, h]

theorem slot_setSlot_other (s : State) {sid j : Nat} (sl : Slot) (h : j ≠ sid) :
    (s.setSlot sid sl).slot j = s.slot j := by
  simp [State.slot, State.setSlot, List.getD_eq_getElem?_getD, List.getElem?_set_ne (Ne.symm h)]

/-- The mask of one algorithm. -/
theorem getLsbD_oneAlg (a b : Alg) : (oneAlg a).getLsbD (algId b) = decide (b = a) := by
  cases a <;> cases b <;> decide

/-- The contexts of a new slot: one for each algorithm of the mask (R1203). -/
@[simp] theorem slotCtx_newSlot (mask : BitVec 17) (hs : Bool) (size : W64) (a : Alg) :
    slotCtx (newSlot mask hs size) a =
      if mask.getLsbD (algId a) then some (initCtx a (if hs then size else 0)) else none := by
  simp only [slotCtx, newSlot]
  exact getD_map_allAlgs _ a

/-- The contexts after an update: every enabled one has absorbed the bytes (R1210). -/
@[simp] theorem slotCtx_slotUpdate (sl : Slot) (m : Bytes) (a : Alg) :
    slotCtx (slotUpdate sl m) a =
      if slotEn sl a then (slotCtx sl a).map fun c => absorbCtx a c m else slotCtx sl a := by
  simp only [slotCtx, slotUpdate]
  exact getD_map_allAlgs _ a

/-- The contexts after S_ADD (R1206). -/
theorem slotCtx_slotAdd (sl : Slot) (a b : Alg) (h : sl.ctx.length = 17) :
    slotCtx (slotAdd sl a) b = if b = a then some (initCtx a sl.size) else slotCtx sl b := by
  have ha := algId_lt a
  by_cases hb : b = a
  · subst hb; simp [slotCtx, slotAdd, List.getD_eq_getElem?_getD, h, ha]
  · have : algId a ≠ algId b := fun e => hb (algId_inj e.symm)
    simp [slotCtx, slotAdd, List.getD_eq_getElem?_getD, hb, List.getElem?_set_ne this]

/-- The contexts after S_REMOVE (R1208). -/
theorem slotCtx_slotRemove (sl : Slot) (a b : Alg) :
    slotCtx (slotRemove sl a) b = if b = a then none else slotCtx sl b := by
  by_cases hb : b = a
  · subst hb
    simp only [slotCtx, slotRemove, List.getD_eq_getElem?_getD, if_pos, List.getElem?_set_self']
    cases sl.ctx[algId b]? <;> rfl
  · have : algId a ≠ algId b := fun e => hb (algId_inj e.symm)
    simp [slotCtx, slotRemove, List.getD_eq_getElem?_getD, hb, List.getElem?_set_ne this]

/-- EN after S_ADD (R1206). -/
theorem slotEn_slotAdd (sl : Slot) (a b : Alg) : slotEn (slotAdd sl a) b = (slotEn sl b || decide (b = a)) := by
  simp [slotEn, slotAdd, getLsbD_oneAlg]

/-- EN after S_REMOVE (R1208). -/
theorem slotEn_slotRemove (sl : Slot) (a b : Alg) : slotEn (slotRemove sl a) b = (slotEn sl b && !decide (b = a)) := by
  have := algId_lt b
  simp only [slotEn, slotRemove, BitVec.getLsbD_and, BitVec.getLsbD_not, getLsbD_oneAlg, this, decide_true, Bool.true_and]

@[simp] theorem slotEn_slotUpdate (sl : Slot) (m : Bytes) (a : Alg) : slotEn (slotUpdate sl m) a = slotEn sl a := rfl

@[simp] theorem slotEn_newSlot (mask : BitVec 17) (hs : Bool) (size : W64) (a : Alg) :
    slotEn (newSlot mask hs size) a = mask.getLsbD (algId a) := rfl

/-! ## What a command can do -/

/-- The three shapes of a command's next state: it completes over the state as it is, over the state with its own slot replaced, or
over the state with SCR replaced. In the last two the code is OK, or that of a search. -/
def ExecShape (i : Instr) (s t : State) : Prop :=
  (∃ c r out, t = s.complete c r out) ∨
  (∃ sl r out, t = (s.setSlot (Sys2Proof.sidOf i) sl).complete .ok r out) ∨
  (∃ x c r out, t = { s with scr := x }.complete c r out ∧ codeIsError c = false)

/-- Every command answers a next state, of one of the three shapes. -/
theorem exec_shape (i : Instr) (s : State) : ∃ t, exec i s = .next t ∧ ExecShape i s t := by
  have keep : ∀ c r out, ∃ t, Host.Outcome.next (φ := Fault) (ρ := Refusal) (s.complete c r out) = .next t ∧ ExecShape i s t :=
    fun c r out => ⟨_, rfl, .inl ⟨c, r, out, rfl⟩⟩
  have find : ∀ o : Option Nat, ∃ t, Host.Outcome.next (φ := Fault) (ρ := Refusal) (s.found o) = .next t ∧ ExecShape i s t := by
    intro o; cases o <;> exact keep _ _ _
  cases i <;> simp only [exec, execNop, execSNew, execSAdd, execSRemove, execSUpdate, execSResult, execSQuery, execDInit,
    execDFinal, execDHash, execEncode, execDecode, execDetectEnc, execRegSize, execRegName, execRegFromName, execDetectAlg,
    raised_eq, State.output_eq]
  case nop => exact keep _ _ _
  case sNew => repeat' split
               all_goals first | exact keep _ _ _ | exact ⟨_, rfl, .inr (.inl ⟨_, _, _, rfl⟩)⟩
  case sAdd => repeat' split
               all_goals first | exact keep _ _ _ | exact ⟨_, rfl, .inr (.inl ⟨_, _, _, rfl⟩)⟩
  case sRemove => repeat' split
                  all_goals first | exact keep _ _ _ | exact ⟨_, rfl, .inr (.inl ⟨_, _, _, rfl⟩)⟩
  case sUpdate => repeat' split
                  all_goals first | exact keep _ _ _ | exact ⟨_, rfl, .inr (.inl ⟨_, _, _, rfl⟩)⟩
  case sResult => repeat' split
                  all_goals exact keep _ _ _
  case sQuery => repeat' split
                 all_goals exact keep _ _ _
  case dInit => repeat' split
                all_goals first | exact keep _ _ _ | exact ⟨_, rfl, .inr (.inl ⟨_, _, _, rfl⟩)⟩
  case dFinal => repeat' split
                 all_goals first | exact keep _ _ _ | exact ⟨_, rfl, .inr (.inl ⟨_, _, _, rfl⟩)⟩
  case dHash => repeat' split
                all_goals first | exact keep _ _ _ | exact ⟨_, rfl, .inr (.inr ⟨_, _, _, _, rfl, rfl⟩)⟩
  case encode => repeat' split
                 all_goals exact keep _ _ _
  case decode => repeat' split
                 all_goals exact keep _ _ _
  case detectEnc => repeat' split
                    all_goals first | exact keep _ _ _ | exact find _
  case regSize => repeat' split
                  all_goals exact keep _ _ _
  case regName => repeat' split
                  all_goals exact keep _ _ _
  case regFromName => repeat' split
                      all_goals first | exact keep _ _ _ | exact find _
  case detectAlg =>
    split
    · exact keep _ _ _
    · cases (detectAlg (operandBytes s s.draws s.arg1 s.arg0) (operandBytes s (s.draws + 1) s.arg3 s.arg2)).map algId with
      | none => exact ⟨_, rfl, .inr (.inr ⟨_, _, _, _, rfl, rfl⟩)⟩
      | some n => exact ⟨_, rfl, .inr (.inr ⟨_, _, _, _, rfl, rfl⟩)⟩

/-! ## What a step can do -/

/-- The state on which the host acts in its step: while a command runs its remaining time goes down. -/
def tick (s : State) : State := if s.status.busy then { s with wait := s.wait - 1 } else s

/-- A step either completes the running command or performs the host's next event. -/
theorem step_eq (s : State) :
    step s = if s.status.busy = true ∧ s.wait = 0 then runCommand s else .next (hostStep (tick s)) := by
  unfold step tick
  by_cases hb : s.status.busy = true
  · by_cases hw : s.wait = 0 <;> simp [hb, hw]
  · simp [hb]

/-- The core's step: the meaning of the decoded command, or the completion with the code of the word that is none. -/
theorem runCommand_eq (s : State) :
    runCommand s = match Sys2Proof.decode s.pcmd with
      | .ok i => exec i s
      | .error e => .next (s.complete (decodeErrorCode e)) := rfl

end Sys2Proof.Machine
end

