-- ==== Sys2Proof/Laws/Engines.lean ====
section
/-! SUPPORT. What the digest engines keep: the shape of an MD context under absorption, absorption of a concatenation, and the shape of a
Merkle accumulator under Push and Fold. -/

namespace Sys2Proof.Machine

/-! ## The Merkle-Damgård engine (R501 to R504) -/

/-- A chaining state of `n` items: what `Compress` takes and gives (R133). -/
def MdKeeps {τ : Type} (a : MdAlg (List τ)) (n : Nat) : Prop :=
  a.iv.length = n ∧ 0 < a.blockBytes ∧
  ∀ h x, h.length = n → x.length = a.blockBytes → (a.compress h x).length = n

/-- Absorbing bytes into an open block keeps the number of chaining items, and leaves the bytes of the open block (R503). -/
theorem mdFold_shape {τ : Type} {a : MdAlg (List τ)} {n : Nat} (k : MdKeeps a n) (s : Bytes) :
    ∀ (h : List τ) (buf : Bytes), h.length = n → buf.length < a.blockBytes →
      (s.foldl (mdByte a) (h, buf)).1.length = n ∧
        (s.foldl (mdByte a) (h, buf)).2.length = (buf.length + s.length) % a.blockBytes := by
  induction s with
  | nil => intro h buf hh hb; exact ⟨hh, by simp [Nat.mod_eq_of_lt hb]⟩
  | cons b s ih =>
    intro h buf hh hb
    simp only [List.foldl_cons, mdByte, List.length_append, List.length_cons, List.length_nil]
    by_cases hf : buf.length + (0 + 1) = a.blockBytes
    · rw [if_pos hf]
      have hc := k.2.2 h (buf ++ [b]) hh (by simpa using hf)
      obtain ⟨h1, h2⟩ := ih (a.compress h (buf ++ [b])) [] hc k.2.1
      refine ⟨h1, ?_⟩
      rw [h2, show buf.length + (s.length + 1) = s.length + a.blockBytes by omega, Nat.add_mod_right]
      simp
    · rw [if_neg hf]
      obtain ⟨h1, h2⟩ := ih h (buf ++ [b]) hh (by simp; omega)
      refine ⟨h1, ?_⟩
      rw [h2]
      simp only [List.length_append, List.length_cons, List.length_nil]
      congr 1
      omega

/-- Absorbing a concatenation is absorbing its parts in turn (R503). -/
theorem mdAbsorb_append {σ : Type} (a : MdAlg σ) (c : MdCtx σ) (s t : Bytes) :
    mdAbsorb a c (s ++ t) = mdAbsorb a (mdAbsorb a c s) t := by
  simp [mdAbsorb, List.foldl_append, BitVec.ofNat_add, BitVec.add_assoc]

/-- Absorbing a concatenation, for the context of any algorithm (R530). -/
theorem absorbCtx_append (a : Alg) (c : Ctx) (s t : Bytes) : absorbCtx a c (s ++ t) = absorbCtx a (absorbCtx a c s) t := by
  cases c <;> simp [absorbCtx, mdAbsorb_append, crcAbsorb, ed2kAbsorb, tthAbsorb, aichAbsorb, List.foldl_append]

/-- `Final` gives what `Out` gives on a chaining state of the right number of items (R504). -/
theorem mdFinal_eq_out {τ : Type} {a : MdAlg (List τ)} {n : Nat} (k : MdKeeps a n) (c : MdCtx (List τ)) (h : c.h.length = n) :
    ∃ h' : List τ, h'.length = n ∧ mdFinal a c = a.out h' :=
  ⟨_, (mdFold_shape k (mdTail a c) c.h [] h k.2.1).1, rfl⟩

theorem length_toLeN (v k : Nat) : (toLeN v k).length = k := by simp [toLeN]

theorem length_toBeN (v k : Nat) : (toBeN v k).length = k := by simp [toBeN, length_toLeN]

theorem length_flatMap_const {α β : Type} (f : α → List β) (n : Nat) (h : ∀ x, (f x).length = n) (l : List α) :
    (l.flatMap f).length = l.length * n := by
  induction l with
  | nil => simp
  | cons x l ih => simp only [List.flatMap_cons, List.length_append, List.length_cons, h, ih]; rw [Nat.add_mul]; omega

/-- The length of a serialised chaining state, for each of the orders of R209. -/
theorem length_outLe32 (h : List W32) : (outLe32 h).length = h.length * 4 :=
  length_flatMap_const _ 4 (fun _ => length_toLeN _ _) h

theorem length_outBe32 (h : List W32) : (outBe32 h).length = h.length * 4 :=
  length_flatMap_const _ 4 (fun _ => length_toBeN _ _) h

theorem length_outLe64 (h : List W64) : (outLe64 h).length = h.length * 8 :=
  length_flatMap_const _ 8 (fun _ => length_toLeN _ _) h

theorem length_outBe64 (h : List W64) : (outBe64 h).length = h.length * 8 :=
  length_flatMap_const _ 8 (fun _ => length_toBeN _ _) h

/-! ## The number of chaining items of each algorithm (R133) -/

theorem keeps_md4 : MdKeeps md4Alg 4 := ⟨rfl, by decide, fun _ _ _ _ => rfl⟩

theorem keeps_md5 : MdKeeps md5Alg 4 := ⟨rfl, by decide, fun _ _ _ _ => rfl⟩

theorem keeps_sha1 : MdKeeps sha1Alg 5 := ⟨rfl, by decide, fun _ _ _ _ => rfl⟩

theorem keeps_sha224 : MdKeeps sha224Alg 8 := ⟨rfl, by decide, fun _ _ _ _ => rfl⟩

theorem keeps_sha256 : MdKeeps sha256Alg 8 := ⟨rfl, by decide, fun _ _ _ _ => rfl⟩

theorem keeps_sha384 : MdKeeps sha384Alg 8 := ⟨rfl, by decide, fun _ _ _ _ => rfl⟩

theorem keeps_sha512 : MdKeeps sha512Alg 8 := ⟨rfl, by decide, fun _ _ _ _ => rfl⟩

theorem keeps_rip128 : MdKeeps rip128Alg 4 := ⟨rfl, by decide, fun _ _ _ _ => rfl⟩

theorem keeps_rip160 : MdKeeps rip160Alg 5 := ⟨rfl, by decide, fun _ _ _ _ => rfl⟩

theorem keeps_rip256 : MdKeeps rip256Alg 8 := ⟨rfl, by decide, fun _ _ _ _ => rfl⟩

theorem keeps_rip320 : MdKeeps rip320Alg 10 := ⟨rfl, by decide, fun _ _ _ _ => rfl⟩

theorem keeps_tiger : MdKeeps tigerAlg 3 := ⟨rfl, by decide, fun _ _ _ _ => rfl⟩

theorem length_whirlRho (k m : Bytes) (h : k.length = 64) : (whirlRho k m).length = 64 := by
  simp [whirlRho, whirlXor, whirlTheta, matOf, h]

theorem length_whirlRounds (rs : List Nat) : ∀ p : Bytes × Bytes, p.1.length = 64 → p.2.length = 64 →
    (rs.foldl whirlRound p).1.length = 64 ∧ (rs.foldl whirlRound p).2.length = 64 := by
  induction rs with
  | nil => intro p h1 h2; exact ⟨h1, h2⟩
  | cons r rs ih =>
    intro p _ _
    have hk : (whirlRho (whirlConst r) p.1).length = 64 := length_whirlRho _ _ (by simp [whirlConst, matOf])
    exact ih _ hk (length_whirlRho _ _ hk)

theorem keeps_whirl : MdKeeps whirlAlg 64 := by
  refine ⟨rfl, by decide, fun h x hh hx => ?_⟩
  have hx' : x.length = 64 := hx
  have hw : (whirlCipher h x).length = 64 := (length_whirlRounds _ (h, whirlXor h x) hh (by simp [whirlXor, hh, hx'])).2
  show (whirlXor x (whirlXor h (whirlCipher h x))).length = 64
  simp [whirlXor, hx', hh, hw]

/-! ## The Merkle collapsing engine (R1110) -/

/-- Push never changes the number of levels (R1110). -/
theorem length_pushFrom (nh : Bytes → Bytes → Bytes) (n : W64) : ∀ (stk : List (Option Bytes)) (i : Nat) (x : Bytes),
    (pushFrom nh n i stk x).length = stk.length := by
  intro stk
  induction stk with
  | nil => intro i x; rfl
  | cons e rest ih =>
    intro i x
    simp only [pushFrom]
    by_cases h : n.getLsbD i = true
    · rw [if_pos h]; simp [ih]
    · rw [if_neg h]; simp

/-- Every hash on the stack after Push is the pushed one, one that was there, or a node hash (R1110). -/
theorem mem_pushFrom (nh : Bytes → Bytes → Bytes) (n : W64) : ∀ (stk : List (Option Bytes)) (i : Nat) (x y : Bytes),
    some y ∈ pushFrom nh n i stk x → y = x ∨ some y ∈ stk ∨ ∃ l r, y = nh l r := by
  intro stk
  induction stk with
  | nil => intro i x y h; simp [pushFrom] at h
  | cons e rest ih =>
    intro i x y h
    simp only [pushFrom] at h
    by_cases hb : n.getLsbD i = true
    · rw [if_pos hb] at h
      rcases List.mem_cons.1 h with h | h
      · cases h
      · rcases ih _ _ _ h with h | h | h
        · exact .inr (.inr ⟨_, _, h⟩)
        · exact .inr (.inl (List.mem_cons_of_mem _ h))
        · exact .inr (.inr h)
    · rw [if_neg hb] at h
      rcases List.mem_cons.1 h with h | h
      · exact .inl (by cases h; rfl)
      · exact .inr (.inl (List.mem_cons_of_mem _ h))

end Sys2Proof.Machine
end

