-- ==== Sys2Proof/Laws/Contexts.lean ====
section
/-! SUPPORT. What the commands keep of a context: its shape after Init, after each byte, and after a string, for every algorithm. -/

namespace Sys2Proof.Machine

open Sys2Proof.Safety

/-- Absorbing bytes keeps the shape of an MD context (R503). -/
theorem mdOk_absorb {τ} {a : MdAlg (List τ)} {w n : Nat} (k : MdKeeps a w) {c : MdCtx (List τ)} (h : MdOk a w n c) (s : Bytes) (hn : n + s.length < 2^64) :
   MdOk a w (n + s.length) (mdAbsorb a c s) := by
  obtain ⟨h1, h2, h3⟩ := h
  have hb : c.buf.length < a.blockBytes := by rw [h3]; exact Nat.mod_lt _ k.2.1
  obtain ⟨e1, e2⟩ := mdFold_shape k s c.h c.buf h1 hb
  refine ⟨e1, ?_, ?_⟩
  · simp [mdAbsorb, h2]; omega
  · simp only [mdAbsorb]; rw [e2, h3]; simp

/-- A new MD context has absorbed nothing (R502). -/
theorem mdOk_init {τ} {a : MdAlg (List τ)} {w : Nat} (k : MdKeeps a w) : MdOk a w 0 (mdInit a) := ⟨k.1, rfl, rfl⟩

/-- A context that has absorbed one tag byte (R1121, R1141). -/
theorem mdOk_tag {τ} {a : MdAlg (List τ)} {w : Nat} (k : MdKeeps a w) : MdOk a w 1 (mdAbsorb a (mdInit a) [0]) := mdOk_absorb k (mdOk_init k) [0] (by simp)

/-- After Push a level holds a hash exactly when its bit of the counter plus one is 1 (R1110, R134). -/
theorem isSome_pushFrom (nh) (N : W64) : ∀ (stk : List (Option Bytes)) (i : Nat) (x : Bytes),
   (∀ j, j < stk.length → ((stk.getD j none).isSome = true ↔ (N.toNat >>> i).testBit j = true)) →
   ∀ j, j < stk.length → (((pushFrom nh N i stk x).getD j none).isSome = true ↔ ((N.toNat >>> i) + 1).testBit j = true) := by
  intro stk
  induction stk with
  | nil => intro i x _ j hj; simp at hj
  | cons e rest ih =>
    intro i x h j hj
    have hq : N.toNat >>> (i+1) = (N.toNat >>> i) / 2 := by rw [Nat.shiftRight_succ]
    have hb : N.getLsbD i = (N.toNat >>> i).testBit 0 := by
      rw [BitVec.getLsbD]; simp
    have h' : ∀ j, j < rest.length → ((rest.getD j none).isSome = true ↔ (N.toNat >>> (i+1)).testBit j = true) := by
      intro j hj
      have := h (j+1) (by simp; omega)
      rw [hq, ← Nat.testBit_succ]; simpa using this
    simp only [pushFrom, hb]
    generalize hQ : N.toNat >>> i = q at *
    by_cases hodd : q.testBit 0 = true
    · rw [if_pos hodd]
      rw [Nat.testBit_zero] at hodd; simp at hodd
      cases j with
      | zero => simp; omega
      | succ j =>
        have := ih (i+1) (nh (e.getD []) x) h' j (by simp at hj; omega)
        rw [hq] at this
        rw [Nat.testBit_succ, show (q+1)/2 = q/2+1 by omega]
        simpa using this
    · rw [if_neg hodd]
      rw [Nat.testBit_zero] at hodd; simp at hodd
      cases j with
      | zero => simp; omega
      | succ j =>
        have := h (j+1) hj
        rw [Nat.testBit_succ, show (q+1)/2 = q/2 by omega, ← Nat.testBit_succ]
        simpa using this

/-- Push keeps the shape of an accumulator (R1110). -/
theorem merkleOk_push {nh : Bytes → Bytes → Bytes} {hl n : Nat} {m : Merkle} (hm : MerkleOk hl n m) (hn : n + 1 < 2^64) (x : Bytes) (hx : x.length = hl)
   (hnh : ∀ l r, (nh l r).length = hl) : MerkleOk hl (n+1) (merklePush nh m x) := by
  obtain ⟨h1, h2, h3, h4⟩ := hm
  have hc : (merklePush nh m x).count.toNat = n+1 := by simp [merklePush, h1]; omega
  refine ⟨hc, by simp [merklePush, length_pushFrom, h2], ?_, ?_⟩
  · intro i hi
    have := isSome_pushFrom nh m.count m.stk 0 x (by
      intro j hj; rw [h2] at hj; have := h3 j hj; rw [this]; simp [BitVec.getLsbD]) i (by rw [h2]; exact hi)
    rw [BitVec.getLsbD, hc, ← h1]
    simpa [merklePush] using this
  · intro y hy
    rcases mem_pushFrom nh _ _ _ _ _ hy with h | h | ⟨l, r, h⟩
    · rw [h, hx]
    · exact h4 y h
    · rw [h, hnh]

/-- The empty accumulator. -/
theorem merkleOk_empty (hl : Nat) : MerkleOk hl 0 merkleEmpty := by
  refine ⟨rfl, rfl, fun i hi => ?_, ?_⟩
  · have h0 : (0 : W64).getLsbD i = false := by simp
    simp only [merkleEmpty, List.getD_eq_getElem?_getD, List.getElem?_replicate, h0]
    split <;> simp
  · intro x hx; simp [merkleEmpty] at hx

/-- Fold over levels that hold hashes of one length gives a hash of that length (R1111). -/
theorem foldFrom_some (nh : Bytes → Bytes → Bytes) (N : W64) (hl : Nat) (hnh : ∀ l r, (nh l r).length = hl) : ∀ (stk : List (Option Bytes)) (i : Nat) (acc : Option Bytes),
  (∀ a, acc = some a → a.length = hl) →
  (∀ j, j < stk.length → N.getLsbD (i+j) = true → ∃ y, stk.getD j none = some y ∧ y.length = hl) →
  (acc.isSome = true ∨ ∃ j, j < stk.length ∧ N.getLsbD (i+j) = true) → ∃ y, foldFrom nh N i acc stk = some y ∧ y.length = hl := by
  intro stk
  induction stk with
  | nil => intro i acc ha _ h
           rcases h with h | ⟨j, hj, _⟩
           · obtain ⟨a, rfl⟩ := Option.isSome_iff_exists.1 h; exact ⟨a, rfl, ha a rfl⟩
           · simp at hj
  | cons e rest ih =>
    intro i acc ha hs h
    have hs' : ∀ j, j < rest.length → N.getLsbD (i+1+j) = true → ∃ y, rest.getD j none = some y ∧ y.length = hl := by
      intro j hj hb
      have := hs (j+1) (by simp; omega) (by rw [← hb]; congr 1; omega)
      simpa using this
    simp only [foldFrom]
    by_cases hb : N.getLsbD i = true
    · rw [if_pos hb]
      cases acc with
      | none =>
        obtain ⟨y, hy, hyl⟩ := hs 0 (by simp) (by simpa using hb)
        simp at hy; subst hy
        exact ih _ _ (by intro a h; cases h; exact hyl) hs' (.inl rfl)
      | some a =>
        exact ih _ _ (by intro b h; cases h; exact hnh _ _) hs' (.inl rfl)
    · rw [if_neg hb]
      refine ih _ _ ha hs' ?_
      rcases h with h | ⟨j, hj, hj'⟩
      · exact .inl h
      · cases j with
        | zero => simp at hj'; exact absurd hj' (by simpa using hb)
        | succ j => exact .inr ⟨j, by simpa using hj, by rw [← hj']; congr 1; omega⟩

/-- Fold of an accumulator that holds something gives one hash (R1111, R1112). -/
theorem length_merkleFold {nh : Bytes → Bytes → Bytes} {hl n : Nat} {m : Merkle} (hm : MerkleOk hl n m) (h0 : 0 < n) (hn : n < 2^56) (hnh : ∀ l r, (nh l r).length = hl) :
   (merkleFold nh m).length = hl := by
  obtain ⟨h1, h2, h3, h4⟩ := hm
  have hex : ∃ j, j < 56 ∧ n.testBit j = true := by
    obtain ⟨j, hj⟩ := Nat.exists_testBit_of_ne_zero (by omega : n ≠ 0)
    refine ⟨j, ?_, hj⟩
    have := Nat.ge_two_pow_of_testBit hj
    exact (Nat.pow_lt_pow_iff_right (by omega)).1 (by omega : 2^j < 2^56)
  obtain ⟨y, hy, hyl⟩ := foldFrom_some nh m.count hl hnh m.stk 0 none (by intro a h; cases h) (by
     intro j hj hb
     rw [h2] at hj
     have := (h3 j hj).2 (by simpa using hb)
     obtain ⟨y, hy⟩ := Option.isSome_iff_exists.1 this
     refine ⟨y, hy, h4 y ?_⟩
     rw [List.getD_eq_getElem?_getD, List.getElem?_eq_getElem (by rw [h2]; exact hj)] at hy
     simp at hy; rw [← hy]
     exact List.getElem_mem _) (.inr (by
     obtain ⟨j, hj, hb⟩ := hex
     exact ⟨j, by rw [h2]; exact hj, by simp [BitVec.getLsbD, h1, hb]⟩))
  simp [merkleFold, hy, hyl]

/-- The length of a final digest is that of `Out` (R504). -/
theorem length_mdFinal {τ} {a : MdAlg (List τ)} {w L : Nat} (k : MdKeeps a w) (c : MdCtx (List τ)) (h : c.h.length = w) (ho : ∀ h, h.length = w → (a.out h).length = L) :
   (mdFinal a c).length = L := by
  obtain ⟨h', e, h''⟩ := mdFinal_eq_out k c h; rw [h'', ho _ e]

/-- The MD4 digest length (R130). -/
theorem length_mdFinal_md4 (c) (h : c.h.length = 4) : (mdFinal md4Alg c).length = 16 := length_mdFinal keeps_md4 c h (fun h e => by show (outLe32 h).length = _; rw [length_outLe32, e])

/-- The SHA-1 digest length (R130). -/
theorem length_mdFinal_sha1 (c) (h : c.h.length = 5) : (mdFinal sha1Alg c).length = 20 := length_mdFinal keeps_sha1 c h (fun h e => by show (outBe32 h).length = _; rw [length_outBe32, e])

/-- The Tiger digest length (R130). -/
theorem length_mdFinal_tiger (c) (h : c.h.length = 3) : (mdFinal tigerAlg c).length = 24 := length_mdFinal keeps_tiger c h (fun h e => by show (outLe64 h).length = _; rw [length_outLe64, e])

/-- The chaining state after absorbing a message has the number of items of the algorithm. -/
theorem length_mdAbsorb_h {τ} {a : MdAlg (List τ)} {w : Nat} (k : MdKeeps a w) (s : Bytes) : (mdAbsorb a (mdInit a) s).h.length = w :=
  (mdFold_shape k s a.iv [] k.1 k.2.1).1

/-- A TTH node hash has 24 bytes (R1120). -/
theorem length_nodeHashTth (l r) : (nodeHashTth l r).length = 24 := length_mdFinal_tiger _ (length_mdAbsorb_h keeps_tiger _)

/-- An AICH node hash has 20 bytes (R1140). -/
theorem length_nodeHashAich (l r) : (nodeHashAich l r).length = 20 := length_mdFinal_sha1 _ (length_mdAbsorb_h keeps_sha1 _)

/-- One byte keeps the shape of an ED2K context (R1103). -/
theorem ed2kOk_byte {n c} (h : Ed2kOk n c) (hn : n + 1 < 2^64) (v : Byte) : Ed2kOk (n+1) (ed2kByte c v) := by
  obtain ⟨h1, h2, h3, h4, h5⟩ := h
  simp only [Config.chunkBytes] at *
  simp only [ed2kByte, Config.chunkBytes]
  by_cases hf : c.cb = 9728000
  · simp only [hf, ↓reduceIte]
    have q1 : (c.nch.toNat + 1) * 9728000 + 1 = n + 1 := congrArg (· + 1) (show (c.nch.toNat + 1) * 9728000 = n by omega)
    have hnc : (c.nch + 1).toNat = c.nch.toNat + 1 := by simp; omega
    have hl := length_mdFinal_md4 c.inner h1.1
    have this := mdOk_absorb keeps_md4 h2 (mdFinal md4Alg c.inner) (by rw [hl]; omega)
    rw [hl] at this
    constructor
    · exact mdOk_absorb keeps_md4 (mdOk_init keeps_md4) [v] (by simp)
    · simp only [hnc]; simpa [Nat.mul_add] using this
    · simp [Config.chunkBytes]
    · simp only [hnc, Config.chunkBytes]; exact q1
    · simp
  · simp only [hf, ↓reduceIte]
    have q1 : c.cb + 1 ≤ 9728000 := by omega
    have q2 : c.nch.toNat * 9728000 + (c.cb + 1) = n + 1 := by rw [← Nat.add_assoc]; congr 1
    constructor
    · exact mdOk_absorb keeps_md4 h1 [v] (by simp; omega)
    · exact h2
    · exact q1
    · exact q2
    · simp

/-- One byte keeps the shape of a TTH context (R1122). -/
theorem tthOk_byte {n c} (h : TthOk n c) (hn : n + 1 < 2^64) (v : Byte) : TthOk (n+1) (tthByte c v) := by
  obtain ⟨h1, h2, h3, h4⟩ := h
  simp only [Config.leafBytes] at *
  have ha := mdOk_absorb keeps_tiger h1 [v] (by simp; omega)
  simp only [tthByte, Config.leafBytes]
  by_cases hf : c.lb + 1 = 1024
  · simp only [hf, ↓reduceIte]
    have q1 : (c.leaves.count.toNat+1) * 1024 + 0 = n + 1 := by rw [Nat.add_zero]; omega
    have hp := merkleOk_push (nh := nodeHashTth) h4 (by omega) _ (length_mdFinal_tiger _ ha.1) length_nodeHashTth
    have e := hp.1
    constructor
    · exact mdOk_tag keeps_tiger
    · simp [Config.leafBytes]
    · simp only [Config.leafBytes]; rw [e]; exact q1
    · simp only [e]; exact hp
  · simp only [hf, ↓reduceIte]
    have q1 : c.lb + 1 < 1024 := by omega
    have q2 : c.leaves.count.toNat * 1024 + (c.lb + 1) = n + 1 := by rw [← Nat.add_assoc]; congr 1
    exact ⟨ha, q1, q2, h4⟩

/-- One byte keeps the shape of an AICH context (R1142). -/
theorem aichOk_byte {n size c} (h : AichOk size n c) (hn : n + 1 < 2^64) (v : Byte) : AichOk size (n+1) (aichByte c v) := by
  obtain ⟨h1, h2, h3, h4, h5, h6, h7, h8⟩ := h
  simp only [Config.chunkBytes, Config.partBytes] at *
  have ha := mdOk_absorb keeps_sha1 h1 [v] (by simp; omega)
  simp only [aichByte, aichCloseChunk, aichPartByte, Config.chunkBytes, Config.partBytes]
  by_cases hc : c.cpos + 1 = 9728000
  · have q1 : (c.chunks.count.toNat+1) * 9728000 + 0 = n + 1 := by rw [Nat.add_zero]; omega
    have hp := merkleOk_push (nh := nodeHashAich) h6 (by omega) _ (length_mdFinal_sha1 _ ha.1) length_nodeHashAich
    simp only [hc, or_true, ↓reduceIte]
    have hf := length_merkleFold hp (by omega) (by omega) length_nodeHashAich
    have hq := merkleOk_push (nh := nodeHashAich) h7 (by omega) _ hf length_nodeHashAich
    have e := hq.1
    constructor
    · exact mdOk_tag keeps_sha1
    · simp [Config.partBytes]
    · simp [Config.chunkBytes]
    · simp [merkleEmpty]
    · simp only [Config.chunkBytes]; rw [e]; exact q1
    · exact merkleOk_empty 20
    · simp only [e]; exact hq
    · exact h8
  · by_cases hb : c.pb + 1 = 184320
    · have q1 : (c.parts.count.toNat + 1) * 184320 + 0 = c.cpos + 1 := by rw [Nat.add_zero]; omega
      have q2 : c.chunks.count.toNat * 9728000 + (c.cpos + 1) = n + 1 := by rw [← Nat.add_assoc]; congr 1
      have q3 : c.cpos + 1 < 9728000 := by omega
      have hp := merkleOk_push (nh := nodeHashAich) h6 (by omega) _ (length_mdFinal_sha1 _ ha.1) length_nodeHashAich
      simp only [hb, hc, true_or, ↓reduceIte]
      have e := hp.1
      constructor
      · exact mdOk_tag keeps_sha1
      · simp [Config.partBytes]
      · exact q3
      · simp only [Config.partBytes]; rw [e]; exact q1
      · exact q2
      · simp only [e]; exact hp
      · exact h7
      · exact h8
    · simp only [hb, hc, or_self, ↓reduceIte]
      have q1 : c.pb + 1 < 184320 := by omega
      have q2 : c.cpos + 1 < 9728000 := by omega
      have q3 : c.parts.count.toNat * 184320 + (c.pb + 1) = c.cpos + 1 := by rw [← Nat.add_assoc]; congr 1
      have q4 : c.chunks.count.toNat * 9728000 + (c.cpos + 1) = n + 1 := by rw [← Nat.add_assoc]; congr 1
      exact ⟨ha, q1, q2, q3, q4, h6, h7, h8⟩

/-- A property that every byte carries one count further holds after a string. -/
theorem foldl_counts {τ} (f : τ → Byte → τ) (P : Nat → τ → Prop) (hf : ∀ n c v, P n c → n + 1 < 2^64 → P (n+1) (f c v)) : ∀ (m : Bytes) (n : Nat) (c : τ), P n c → n + m.length < 2^64 → P (n + m.length) (m.foldl f c) := by
  intro m
  induction m with
  | nil => intro n c h _; exact h
  | cons b m ih =>
    intro n c h hn
    simp only [List.length_cons] at hn ⊢
    have := ih (n+1) (f c b) (hf n c b h (by omega)) (by omega)
    rwa [show n + 1 + m.length = n + (m.length+1) by omega] at this

/-- The engines with 32-bit chaining words. -/
theorem keeps_md32Of (a : Alg) (c) (h : kindOk a (.md32 c)) : MdKeeps (md32Of a) (chainWords a) := by
  cases a with
  | md4 => exact keeps_md4
  | md5 => exact keeps_md5
  | sha1 => exact keeps_sha1
  | sha224 => exact keeps_sha224
  | sha256 => exact keeps_sha256
  | ripemd128 => exact keeps_rip128
  | ripemd160 => exact keeps_rip160
  | ripemd256 => exact keeps_rip256
  | ripemd320 => exact keeps_rip320
  | _ => exact h.elim

/-- The engines with 64-bit chaining words. -/
theorem keeps_md64Of (a : Alg) (c) (h : kindOk a (.md64 c)) : MdKeeps (md64Of a) (chainWords a) := by
  cases a with
  | sha384 => exact keeps_sha384
  | sha512 => exact keeps_sha512
  | tiger => exact keeps_tiger
  | _ => exact h.elim

theorem kindOk_md32 {a c c'} (h : kindOk a (.md32 c)) : kindOk a (.md32 c') := by cases a <;> exact h

theorem kindOk_md64 {a c c'} (h : kindOk a (.md64 c)) : kindOk a (.md64 c') := by cases a <;> exact h

/-- Absorbing bytes keeps the shape of a context of any algorithm, and counts them (R530, R118). -/
theorem ctxOk_absorb {a size n c} (h : CtxOk a size n c) (m : Bytes) (hn : n + m.length < 2^64) : CtxOk a size (n + m.length) (absorbCtx a c m) := by
  cases c with
  | crc r => exact h
  | md32 c => exact ⟨kindOk_md32 h.1, mdOk_absorb (keeps_md32Of a _ h.1) h.2 m hn⟩
  | md64 c => exact ⟨kindOk_md64 h.1, mdOk_absorb (keeps_md64Of a _ h.1) h.2 m hn⟩
  | mat c => exact ⟨h.1, mdOk_absorb keeps_whirl h.2 m hn⟩
  | ed2k c => exact ⟨h.1, foldl_counts ed2kByte Ed2kOk (fun n c v h hn => ed2kOk_byte h hn v) m n c h.2 hn⟩
  | tth c => exact ⟨h.1, foldl_counts tthByte TthOk (fun n c v h hn => tthOk_byte h hn v) m n c h.2 hn⟩
  | aich c => exact ⟨h.1, foldl_counts aichByte (AichOk size) (fun n c v h hn => aichOk_byte h hn v) m n c h.2 hn⟩

/-- A new context of any algorithm has absorbed nothing (R530). -/
theorem ctxOk_init (a size) : CtxOk a size 0 (initCtx a size) := by
  cases a <;> first
    | exact (rfl : _ = _)
    | exact ⟨trivial, mdOk_init (keeps_md32Of _ (mdInit md4Alg) trivial)⟩
    | exact ⟨trivial, mdOk_init (keeps_md64Of _ (mdInit sha512Alg) trivial)⟩
    | exact ⟨rfl, mdOk_init keeps_whirl⟩
    | skip
  · refine ⟨rfl, mdOk_init keeps_md4, mdOk_init keeps_md4, ?_, ?_, ?_⟩ <;> simp [ed2kInit]
  · refine ⟨rfl, mdOk_tag keeps_tiger, ?_, ?_, merkleOk_empty 24⟩ <;> simp [tthInit, merkleEmpty, Config.leafBytes]
  · refine ⟨rfl, mdOk_tag keeps_sha1, ?_, ?_, ?_, ?_, merkleOk_empty 20, merkleOk_empty 20, rfl⟩ <;> simp [aichInit, merkleEmpty, Config.partBytes, Config.chunkBytes]

/-- The slot S_NEW gives is as the commands keep it, when AICH comes with a size (R1203). -/
theorem slotOk_newSlot (mask : BitVec 17) (hs : Bool) (size : W64) (h : mask.getLsbD 16 = true → hs = true) :
    SlotOk (newSlot mask hs size) := by
  refine ⟨by simp [newSlot, allAlgs, Config.nalg], ?_, fun _ => rfl, fun h => by simp [newSlot] at h ⊢; simp [h],
    fun h' => ⟨h h', by simp [newSlot]⟩⟩
  intro a
  rw [slotCtx_newSlot]
  cases hm : mask.getLsbD (algId a)
  · simp [hm]
  · simp only [if_true, slotEn_newSlot, hm, true_and]; exact ctxOk_init _ _

end Sys2Proof.Machine
end

