-- ==== Sys2Proof/Laws/Decode.lean ====
section
/-! SUPPORT. The fields of an encoded command and what the decoder answers. -/

namespace Sys2Proof

theorem opNat_lt (o : Op) : opNat o < 256 := by cases o <;> decide

/-- The opcode map is read the way it is written. -/
theorem opOfNat_opNat (o : Op) : opOfNat (opNat o) = some o := by cases o <;> rfl

theorem selOf_lt {i : Instr} (h : i.wf = true) : selOf i < 256 := by
  cases i <;> simp_all [Instr.wf, selOf, selFits]

theorem sidOf_lt {i : Instr} (h : i.wf = true) : sidOf i < 16 := by
  cases i <;> simp_all [Instr.wf, sidOf, sidFits]

/-- The number a command word stands for (R317). -/
theorem encode_toNat {i : Instr} (h : i.wf = true) :
    (encode i).toNat = sidOf i * 65536 + selOf i * 256 + opNat (opOf i) := by
  have h1 := selOf_lt h
  have h2 := sidOf_lt h
  have h3 := opNat_lt (opOf i)
  simp only [encode, BitVec.toNat_or, BitVec.toNat_shiftLeft, BitVec.toNat_ofNat]
  rw [Nat.mod_eq_of_lt (a := sidOf i) (by omega), Nat.mod_eq_of_lt (a := selOf i) (by omega),
    Nat.mod_eq_of_lt (a := opNat (opOf i)) (by omega)]
  rw [Nat.mod_eq_of_lt (by simp [Nat.shiftLeft_eq]; omega), Nat.mod_eq_of_lt (by simp [Nat.shiftLeft_eq]; omega)]
  rw [Nat.or_assoc, ← Nat.shiftLeft_add_eq_or_of_lt (i := 8) (by omega),
    ← Nat.shiftLeft_add_eq_or_of_lt (by simp [Nat.shiftLeft_eq]; omega)]
  simp [Nat.shiftLeft_eq]; omega

/-! ## The fields as numbers -/

theorem opField_eq (w : W32) : opField w = w.toNat % 256 := by
  simp [opField, BitVec.extractLsb'_toNat]

theorem selField_eq (w : W32) : selField w = w.toNat / 256 % 256 := by
  simp [selField, BitVec.extractLsb'_toNat, Nat.shiftRight_eq_div_pow]

theorem sidField_eq (w : W32) : sidField w = w.toNat / 65536 % 16 := by
  simp [sidField, BitVec.extractLsb'_toNat, Nat.shiftRight_eq_div_pow]

theorem rsvField_eq (w : W32) : rsvField w = w.toNat / 1048576 := by
  have := w.isLt
  simp [rsvField, BitVec.extractLsb'_toNat, Nat.shiftRight_eq_div_pow]; omega

/-- What the decoder answers, as one equation over the opcode row. -/
theorem decode_eq (w : W32) :
    decode w = match opOfNat (opField w) with
      | none => .error .badOpcode
      | some op => if fieldsOk op w then .ok (instrOf (selField w) (sidField w) op) else .error .badField := rfl

/-- A decoded command is of the row of its opcode. -/
theorem opOf_instrOf (sel sid : Nat) (op : Op) : opOf (instrOf sel sid op) = op := by cases op <;> rfl

end Sys2Proof
end

