-- ==== Sys2Proof/Laws/PerInstr.lean ====
section
/-! SUPPORT. The families of statements made once per command. `EncodeFields`: the fields of a well-formed command's word are its
opcode, its SEL and its SID, and RSV is zero (R301, R310). -/

namespace Sys2Proof.Laws

/-- The four fields of the word of a well-formed command (R301, R310, R317). -/
def EncodeFields.Statement (i : Instr) : Prop :=
  i.wf = true →
    opField (encode i) = opNat (opOf i) ∧ selField (encode i) = selOf i ∧ sidField (encode i) = sidOf i ∧
      rsvField (encode i) = 0

/-- The fields of the word, from the number it stands for. -/
theorem encodeFields_of_wf (i : Instr) : EncodeFields.Statement i := by
  intro h
  have h1 := selOf_lt h
  have h2 := sidOf_lt h
  have h3 := opNat_lt (opOf i)
  have h4 := encode_toNat h
  refine ⟨?_, ?_, ?_, ?_⟩
  · rw [opField_eq, h4]; omega
  · rw [selField_eq, h4]; omega
  · rw [sidField_eq, h4]; omega
  · rw [rsvField_eq, h4]; omega

theorem EncodeFields.nop : EncodeFields.Statement (.nop) := encodeFields_of_wf _
theorem EncodeFields.sNew (sid : Nat) : EncodeFields.Statement (.sNew sid) := encodeFields_of_wf _
theorem EncodeFields.sAdd (alg sid : Nat) : EncodeFields.Statement (.sAdd alg sid) := encodeFields_of_wf _
theorem EncodeFields.sRemove (alg sid : Nat) : EncodeFields.Statement (.sRemove alg sid) := encodeFields_of_wf _
theorem EncodeFields.sUpdate (sid : Nat) : EncodeFields.Statement (.sUpdate sid) := encodeFields_of_wf _
theorem EncodeFields.sResult (alg sid : Nat) : EncodeFields.Statement (.sResult alg sid) := encodeFields_of_wf _
theorem EncodeFields.sQuery (sid : Nat) : EncodeFields.Statement (.sQuery sid) := encodeFields_of_wf _
theorem EncodeFields.dInit (alg sid : Nat) : EncodeFields.Statement (.dInit alg sid) := encodeFields_of_wf _
theorem EncodeFields.dFinal (alg sid : Nat) : EncodeFields.Statement (.dFinal alg sid) := encodeFields_of_wf _
theorem EncodeFields.dHash (alg : Nat) : EncodeFields.Statement (.dHash alg) := encodeFields_of_wf _
theorem EncodeFields.encode (enc : Nat) : EncodeFields.Statement (.encode enc) := encodeFields_of_wf _
theorem EncodeFields.decode (enc : Nat) : EncodeFields.Statement (.decode enc) := encodeFields_of_wf _
theorem EncodeFields.detectEnc : EncodeFields.Statement (.detectEnc) := encodeFields_of_wf _
theorem EncodeFields.regSize (alg : Nat) : EncodeFields.Statement (.regSize alg) := encodeFields_of_wf _
theorem EncodeFields.regName (alg : Nat) : EncodeFields.Statement (.regName alg) := encodeFields_of_wf _
theorem EncodeFields.regFromName : EncodeFields.Statement (.regFromName) := encodeFields_of_wf _
theorem EncodeFields.detectAlg : EncodeFields.Statement (.detectAlg) := encodeFields_of_wf _

end Sys2Proof.Laws
end

