-- ==== Sys2Proof/Tests/Slice0.lean ====
section
/-! SUPPORT. Tests of the model: the WellFormed checks, the decoding of every command, one or two steps of every command, the
digests of "abc", and the host's window. Expected values are those of spec/95_test_vectors.md (row numbers in the comments) or of
the rule named. Then, for each obligation with hypotheses, states and operands that meet them. -/

namespace Sys2Proof.Tests

-- One theorem after another: many theorems by `decide` at once each hold a thread of Lean's while they wait.
set_option Elab.async false

open Sys2Proof.Machine Sys2Proof.Safety

/-! ## Helpers -/

/-- The reset state with a byte string at IBUF[0] and the ARG registers set. -/
def start (bs : Bytes) (a0 a1 : W32) (a2 a3 : W32 := 0) : State :=
  { State.reset with ibuf := memOf 0 bs, arg0 := a0, arg1 := a1, arg2 := a2, arg3 := a3 }

/-- One step, taken to a state. -/
def next (s : State) : State :=
  match step s with
  | .next t => t
  | .fault _ => s
  | .refused _ => s

/-- The state after the command word `w` has run in `s`. -/
def run (s : State) (w : Nat) : State := next (s.withFetchWord 32 w)

/-- What a host sees of a completion: STATUS, RES0, RES1, and the output bytes. -/
def seen (s : State) : W32 × W32 × W32 × Bytes := (statusWord s.status, s.res0, s.res1, s.obuf.map Prod.snd)

/-- The state after the host has performed an event. -/
def after (s : State) (e : HostEvent) : State := next { s with hostQueue := [e] }

/-- "abc". -/
def abc : Bytes := [0x61, 0x62, 0x63]

/-! ## WellFormed: each check refuses a number too large for its field (R301) -/

theorem test_wf_sid_refused : (Instr.sNew 16).wf = false ∧ (Instr.sUpdate 16).wf = false ∧ (Instr.sQuery 16).wf = false := by decide

theorem test_wf_sel_refused : (Instr.dHash 256).wf = false ∧ (Instr.encode 256).wf = false ∧ (Instr.decode 256).wf = false ∧
    (Instr.regSize 256).wf = false ∧ (Instr.regName 256).wf = false := by decide

theorem test_wf_both_refused : (Instr.sAdd 256 15).wf = false ∧ (Instr.sAdd 255 16).wf = false ∧
    (Instr.sRemove 256 15).wf = false ∧ (Instr.sRemove 255 16).wf = false ∧ (Instr.sResult 256 0).wf = false ∧
    (Instr.sResult 0 16).wf = false ∧ (Instr.dInit 256 0).wf = false ∧ (Instr.dInit 0 16).wf = false ∧
    (Instr.dFinal 256 0).wf = false ∧ (Instr.dFinal 0 16).wf = false := by decide

/-! ## Decoding: words written from R301 and R310 (OP bits 7:0, SEL bits 15:8, SID bits 19:16) -/

theorem test_decode_nop : decodeTableWord 32 0x00000000 = some .nop := by decide

theorem test_decode_sNew : decodeTableWord 32 0x00030001 = some (.sNew 3) := by decide

theorem test_decode_sAdd : decodeTableWord 32 0x00020E02 = some (.sAdd 14 2) := by decide

theorem test_decode_sRemove : decodeTableWord 32 0x000F0103 = some (.sRemove 1 15) := by decide

theorem test_decode_sUpdate : decodeTableWord 32 0x00020004 = some (.sUpdate 2) := by decide

theorem test_decode_sResult : decodeTableWord 32 0x00020305 = some (.sResult 3 2) := by decide

theorem test_decode_sQuery : decodeTableWord 32 0x00010006 = some (.sQuery 1) := by decide

theorem test_decode_dInit : decodeTableWord 32 0x00001008 = some (.dInit 16 0) := by decide

theorem test_decode_dFinal : decodeTableWord 32 0x00031009 = some (.dFinal 16 3) := by decide

theorem test_decode_dHash : decodeTableWord 32 0x0000050A = some (.dHash 5) := by decide

theorem test_decode_encode : decodeTableWord 32 0x00000210 = some (.encode 2) := by decide

theorem test_decode_decode : decodeTableWord 32 0x00000411 = some (.decode 4) := by decide

theorem test_decode_detectEnc : decodeTableWord 32 0x00000012 = some .detectEnc := by decide

theorem test_decode_regSize : decodeTableWord 32 0x0000FF18 = some (.regSize 255) := by decide

theorem test_decode_regName : decodeTableWord 32 0x00000C19 = some (.regName 12) := by decide

theorem test_decode_regFromName : decodeTableWord 32 0x0000001A = some .regFromName := by decide

theorem test_decode_detectAlg : decodeTableWord 32 0x0000001B = some .detectAlg := by decide

/-- Reserved opcodes, a set RSV bit, and a SEL or SID that must be zero (V2, V5, V6, V7, V13). -/
theorem test_decode_rejects : decodeTableWord 32 0x00000007 = none ∧ decodeTableWord 32 0x00100000 = none ∧
    decodeTableWord 32 0x00000100 = none ∧ decodeTableWord 32 0x00010000 = none ∧ decodeTableWord 32 0x0001000A = none := by decide

/-! ## Commands -/

/-- V1. -/
theorem test_nop : seen (run (start abc 0 0) 0x00000000) = (0x00000002, 0, 0, []) := by decide +kernel

/-- V9 (BAD_SID), V17 (NO_SIZE), V21 and V22 (BAD_FIELD). -/
theorem test_sNew_checks : (seen (run (start abc 0 0) 0x00040001)).1 = 0x00001206 ∧
    (seen (run (start abc 0x10000 0) 0x00000001)).1 = 0x00002106 ∧ (seen (run (start abc 0x20000 0) 0x00000001)).1 = 0x00001106 ∧
    (seen (run (start abc 1 2) 0x00000001)).1 = 0x00001106 := by decide +kernel

/-- R1203: a session with MD5, SHA-1 and AICH of size 2^32 + 5 in slot 3. -/
theorem test_sNew : let t := run (start abc 0x1000C 1 5 1) 0x00030001
    (seen t).1 = 0x00000002 ∧ ((t.slot 3).en, (t.slot 3).hasSize, (t.slot 3).size, (t.slot 3).total) = (0x1000C, true, 0x100000005, 0) := by
  decide +kernel

/-- V25 (NO_SIZE) and V26 (MD5 enabled). -/
theorem test_sAdd : (seen (run (start abc 0 0) 0x00001002)).1 = 0x00002106 ∧
    (seen (run (start abc 0 0) 0x00000202)).1 = 0x00000002 ∧ ((run (start abc 0 0) 0x00000202).slot 0).en = 0x00004 := by decide +kernel

/-- V37: a frozen set ignores S_ADD. -/
theorem test_sAdd_ignored : let t := run (run (run (start abc 0xC 0) 0x00000001) 0x00000004) 0x00000102
    t.status.code = .ignored ∧ (t.slot 0).en = 0x0000C := by decide +kernel

/-- V34, V35: MD5 removed, then not enabled. -/
theorem test_sRemove : let t := run (run (start abc 0xC 0) 0x00000001) 0x00000203
    (seen t).1 = 0x00000002 ∧ (t.slot 0).en = 0x00008 ∧ (slotCtx (t.slot 0) .md5).isNone = true ∧
    (seen (run t 0x00000203)).1 = 0x00000002 := by decide +kernel

/-- V38: TOTAL = 2^64 − 2, and two bytes or one. -/
theorem test_sUpdate_overflow : let s := (start abc 2 0).setSlot 0 { emptySlot with dirty := true, total := 0xFFFFFFFFFFFFFFFE }
    (seen (run s 0x00000004)).1 = 0x00002406 ∧
    seen (run { s with arg0 := 1 } 0x00000004) = (0x00000002, 0xFFFFFFFF, 0xFFFFFFFF, []) := by decide +kernel

/-- V18: an update past the declared AICH size is refused and absorbs nothing. -/
theorem test_sUpdate_mismatch : let s := (start abc 3 0).setSlot 0 (newSlot 0x10000 true 2)
    (seen (run s 0x00000004)).1 = 0x00002206 ∧ (run s 0x00000004).slot 0 = s.slot 0 := by decide +kernel

/-- V23 (NOT_ENABLED), V10 (BAD_ALG), V11 (BAD_SID first). -/
theorem test_sResult_checks : (seen (run (start abc 0 0) 0x00000005)).1 = 0x00002006 ∧
    (seen (run (start abc 0 0) 0x00001105)).1 = 0x00001306 ∧ (seen (run (start abc 0 0) 0x00041105)).1 = 0x00001206 := by decide +kernel

/-- V41 for CRC32: two updates, then the result, which leaves the slot as it is. -/
theorem test_sResult : let t := run (run ((start abc 1 0).setSlot 0 (newSlot 1 false 0)) 0x00000004 |> fun u => { u with arg0 := 2, arg1 := 1 }) 0x00000004
    seen (run t 0x00000005) = (0x00000002, 4, 0, [0x35, 0x24, 0x41, 0xc2]) ∧ (run t 0x00000005).slot 0 = t.slot 0 := by decide +kernel

/-- V24, and the flags of R1215. -/
theorem test_sQuery : seen (run (start abc 0 0) 0x00000006) = (0x00000002, 0, 0, []) ∧
    seen (run ((start abc 0 0).setSlot 2 { emptySlot with en := 0x10001, dirty := true, final := true, hasSize := true }) 0x00020006) =
      (0x00000002, 0x10001, 7, []) := by decide +kernel

/-- R1220: MD5 alone in slot 0; AICH without a size is NO_SIZE, checked after BAD_FIELD. -/
theorem test_dInit : ((run (start abc 0 0) 0x00000208).slot 0).en = 4 ∧ (seen (run (start abc 0 0) 0x00001008)).1 = 0x00002106 ∧
    (seen (run (start abc 0 2) 0x00001008)).1 = 0x00001106 := by decide +kernel

/-- V27: the digest of "abc", and FINAL set; V27's last update is FINALIZED. -/
theorem test_dFinal : let t := run (run ((start abc 3 0).setSlot 0 (newSlot 4 false 0)) 0x00000004) 0x00000209
    seen t = (0x00000002, 16, 0, [0x90, 0x01, 0x50, 0x98, 0x3c, 0xd2, 0x4f, 0xb0, 0xd6, 0x96, 0x3f, 0x7d, 0x28, 0xe1, 0x7f, 0x72]) ∧ (t.slot 0).final = true ∧ t.status.err = false ∧
    (run t 0x00000004).status.code = .finalized := by decide +kernel

/-- V33 (NOT_ENABLED) and V19 (SIZE_MISMATCH). -/
theorem test_dFinal_checks : (seen (run ((start abc 0 0).setSlot 0 (newSlot 4 false 0)) 0x00000309)).1 = 0x00002006 ∧
    (seen (run ((start abc 0 0).setSlot 0 (newSlot 0x10000 true 3)) 0x00001009)).1 = 0x00002206 := by decide +kernel

/-- The example of R1224, and V16: an empty operand at the end of IBUF. -/
theorem test_dHash : seen (run (start abc 3 0) 0x0000050A) = (0x00000002, 32, 0, [0xba, 0x78, 0x16, 0xbf, 0x8f, 0x01, 0xcf, 0xea, 0x41, 0x41, 0x40, 0xde, 0x5d, 0xae, 0x22, 0x23, 0xb0, 0x03, 0x61, 0xa3, 0x96, 0x17, 0x7a, 0x9c, 0xb4, 0x10, 0xff, 0x61, 0xf2, 0x00, 0x15, 0xad]) ∧
    seen (run (start abc 0 4096) 0x0000000A) = (0x00000002, 4, 0, [0, 0, 0, 0]) := by decide +kernel

/-- V14 and V15: BAD_RANGE, without wrap-around. -/
theorem test_dHash_range : (seen (run (start abc 1 4096) 0x0000000A)).1 = 0x00001506 ∧
    (seen (run (start abc 0xFFFFFFFF 1) 0x0000000A)).1 = 0x00001506 := by decide +kernel

/-- "foobar" in BASE32 and the bytes fb ef ff in BASE64URL (table 2.1). -/
theorem test_encode : (seen (run (start [0x66, 0x6F, 0x6F, 0x62, 0x61, 0x72] 6 0) 0x00000210)).2.2.2 = [0x4D, 0x5A, 0x58, 0x57, 0x36, 0x59, 0x54, 0x42, 0x4F, 0x49, 0x3D, 0x3D, 0x3D, 0x3D, 0x3D, 0x3D] ∧
    seen (run (start [0xFB, 0xEF, 0xFF] 3 0) 0x00000510) = (0x00000002, 4, 0, [0x2D, 0x2D, 0x5F, 0x5F]) := by decide +kernel

/-- Every encoding of "foob" (table 2.1); V12. -/
theorem test_encode_all : encodeText .base16 [0x66, 0x6F, 0x6F, 0x62] = [0x36, 0x36, 0x36, 0x46, 0x36, 0x46, 0x36, 0x32] ∧ encodeText .base16l [0x66, 0x6F, 0x6F, 0x62] = [0x36, 0x36, 0x36, 0x66, 0x36, 0x66, 0x36, 0x32] ∧ encodeText .base32 [0x66, 0x6F, 0x6F, 0x62] = [0x4D, 0x5A, 0x58, 0x57, 0x36, 0x59, 0x51, 0x3D] ∧
    encodeText .base32hex [0x66, 0x6F, 0x6F, 0x62] = [0x43, 0x50, 0x4E, 0x4D, 0x55, 0x4F, 0x47, 0x3D] ∧ encodeText .base64 [0x66, 0x6F, 0x6F, 0x62] = [0x5A, 0x6D, 0x39, 0x76, 0x59, 0x67, 0x3D, 0x3D] ∧ encodeText .base64url [0x66, 0x6F, 0x6F, 0x62] = [0x5A, 0x6D, 0x39, 0x76, 0x59, 0x67, 0x3D, 0x3D] ∧
    (seen (run (start abc 3 0) 0x00000610)).1 = 0x00001406 := by decide +kernel

/-- V46 (DEC3) and DEC4: the padding ends the text; a foreign character is PARSE with its index. -/
theorem test_decode : seen (run (start [0x5A, 0x6D, 0x38, 0x3D, 0x21, 0x21] 6 0) 0x00000411) = (0x00000002, 2, 3, [0x66, 0x6F]) ∧
    seen (run (start [0x5A, 0x6D, 0x39, 0x76, 0x21, 0x6D, 0x46, 0x79] 8 0) 0x00000411) = (0x00003006, 0, 4, []) := by decide +kernel

/-- DEC9, DEC14, DEC17. -/
theorem test_decode_more : decodeText .base64 [0x5A, 0x68, 0x3D, 0x3D] = .ok [0x66] 2 ∧ decodeText .base16l [0x36, 0x36, 0x36, 0x46] = .parse 3 ∧
    decodeText .base32hex [0x43, 0x50, 0x4E, 0x4D, 0x55, 0x4F, 0x4A, 0x31, 0x45, 0x38, 0x3D, 0x3D, 0x3D, 0x3D, 0x3D, 0x3D] = .ok [0x66, 0x6F, 0x6F, 0x62, 0x61, 0x72] 10 := by decide +kernel

/-- DET4, DET9, DET10 and DET13. -/
theorem test_detectEnc : (seen (run (start [0x43, 0x50, 0x4E, 0x4D, 0x55, 0x4F, 0x4A, 0x31, 0x45, 0x38, 0x3D, 0x3D, 0x3D, 0x3D, 0x3D, 0x3D] 16 0) 0x00000012)).2.1 = 3 ∧ (seen (run (start [0x41, 0x42, 0x43, 0x44, 0x32, 0x33, 0x34, 0x35] 8 0) 0x00000012)).2.1 = 0 ∧
    (seen (run (start abc 3 0) 0x00000012)).2.1 = 1 ∧
    seen (run (start [0x3D, 0x3D, 0x3D, 0x3D] 4 0) 0x00000012) = (0x00000102, 0xFFFFFFFF, 0, []) := by decide +kernel

/-- Table 5.1. -/
theorem test_regSize : seen (run (start abc 0 0) 0x00000B18) = (0x00000002, 40, 0, []) ∧
    (seen (run (start abc 0 0) 0x00001118)).1 = 0x00001306 := by decide +kernel

/-- Table 5.1. -/
theorem test_regName : seen (run (start abc 0 0) 0x00000C19) =
    (0x00000002, 9, 0, [0x57, 0x48, 0x49, 0x52, 0x4C, 0x50, 0x4F, 0x4F, 0x4C]) := by decide +kernel

/-- RN1, RN4, RN7, RN8. -/
theorem test_regFromName : seen (run (start [0x53, 0x48, 0x41, 0x32, 0x35, 0x36] 6 0) 0x0000001A) = (0x00000002, 5, 0, []) ∧
    seen (run (start [0x73, 0x68, 0x61, 0x32, 0x35, 0x36] 6 0) 0x0000001A) = (0x00000102, 0xFFFFFFFF, 0, []) ∧
    (seen (run (start abc 0 0) 0x0000001A)).1 = 0x00000102 ∧ (seen (run (start abc 7 4090) 0x0000001A)).1 = 0x00001506 := by decide +kernel

/-- Table 5.2, row SHA-1: the candidate digest after the message; and DA2. -/
theorem test_detectAlg : seen (run (start (abc ++ [0xa9, 0x99, 0x3e, 0x36, 0x47, 0x06, 0x81, 0x6a, 0xba, 0x3e, 0x25, 0x71, 0x78, 0x50, 0xc2, 0x6c, 0x9c, 0xd0, 0xd8, 0x9d]) 3 0 20 3) 0x0000001B) = (0x00000002, 3, 0, []) ∧
    seen (run (start (abc ++ List.replicate 17 0) 3 0 17 3) 0x0000001B) = (0x00000102, 0xFFFFFFFF, 0, []) := by decide +kernel

/-! ## Engines: the digests of "abc" (table 5.2) -/

theorem test_abc_crc_md : digest .crc32 abc 3 =
      [0x35, 0x24, 0x41, 0xc2] ∧
    digest .md4 abc 3 =
      [0xa4, 0x48, 0x01, 0x7a, 0xaf, 0x21, 0xd8, 0x52, 0x5f, 0xc1, 0x0a, 0xe8, 0x7a, 0xa6, 0x72, 0x9d] ∧
    digest .md5 abc 3 =
      [0x90, 0x01, 0x50, 0x98, 0x3c, 0xd2, 0x4f, 0xb0, 0xd6, 0x96, 0x3f, 0x7d, 0x28, 0xe1, 0x7f, 0x72] := by
  decide +kernel

theorem test_abc_sha32 : digest .sha1 abc 3 =
      [0xa9, 0x99, 0x3e, 0x36, 0x47, 0x06, 0x81, 0x6a, 0xba, 0x3e, 0x25, 0x71, 0x78, 0x50, 0xc2, 0x6c, 0x9c, 0xd0, 0xd8, 0x9d] ∧
    digest .sha224 abc 3 =
      [0x23, 0x09, 0x7d, 0x22, 0x34, 0x05, 0xd8, 0x22, 0x86, 0x42, 0xa4, 0x77, 0xbd, 0xa2, 0x55, 0xb3, 0x2a, 0xad, 0xbc, 0xe4, 0xbd, 0xa0, 0xb3, 0xf7, 0xe3, 0x6c, 0x9d, 0xa7] ∧
    digest .sha256 abc 3 =
      [0xba, 0x78, 0x16, 0xbf, 0x8f, 0x01, 0xcf, 0xea, 0x41, 0x41, 0x40, 0xde, 0x5d, 0xae, 0x22, 0x23, 0xb0, 0x03, 0x61, 0xa3, 0x96, 0x17, 0x7a, 0x9c, 0xb4, 0x10, 0xff, 0x61, 0xf2, 0x00, 0x15, 0xad] := by
  decide +kernel

theorem test_abc_sha64 : digest .sha384 abc 3 =
      [0xcb, 0x00, 0x75, 0x3f, 0x45, 0xa3, 0x5e, 0x8b, 0xb5, 0xa0, 0x3d, 0x69, 0x9a, 0xc6, 0x50, 0x07, 0x27, 0x2c, 0x32, 0xab, 0x0e, 0xde, 0xd1, 0x63, 0x1a, 0x8b, 0x60, 0x5a, 0x43, 0xff, 0x5b, 0xed, 0x80, 0x86, 0x07, 0x2b, 0xa1, 0xe7, 0xcc, 0x23, 0x58, 0xba, 0xec, 0xa1, 0x34, 0xc8, 0x25, 0xa7] ∧
    digest .sha512 abc 3 =
      [0xdd, 0xaf, 0x35, 0xa1, 0x93, 0x61, 0x7a, 0xba, 0xcc, 0x41, 0x73, 0x49, 0xae, 0x20, 0x41, 0x31, 0x12, 0xe6, 0xfa, 0x4e, 0x89, 0xa9, 0x7e, 0xa2, 0x0a, 0x9e, 0xee, 0xe6, 0x4b, 0x55, 0xd3, 0x9a, 0x21, 0x92, 0x99, 0x2a, 0x27, 0x4f, 0xc1, 0xa8, 0x36, 0xba, 0x3c, 0x23, 0xa3, 0xfe, 0xeb, 0xbd, 0x45, 0x4d, 0x44, 0x23, 0x64, 0x3c, 0xe8, 0x0e, 0x2a, 0x9a, 0xc9, 0x4f, 0xa5, 0x4c, 0xa4, 0x9f] := by
  decide +kernel

theorem test_abc_ripemd : digest .ripemd128 abc 3 =
      [0xc1, 0x4a, 0x12, 0x19, 0x9c, 0x66, 0xe4, 0xba, 0x84, 0x63, 0x6b, 0x0f, 0x69, 0x14, 0x4c, 0x77] ∧
    digest .ripemd160 abc 3 =
      [0x8e, 0xb2, 0x08, 0xf7, 0xe0, 0x5d, 0x98, 0x7a, 0x9b, 0x04, 0x4a, 0x8e, 0x98, 0xc6, 0xb0, 0x87, 0xf1, 0x5a, 0x0b, 0xfc] ∧
    digest .ripemd256 abc 3 =
      [0xaf, 0xbd, 0x6e, 0x22, 0x8b, 0x9d, 0x8c, 0xbb, 0xce, 0xf5, 0xca, 0x2d, 0x03, 0xe6, 0xdb, 0xa1, 0x0a, 0xc0, 0xbc, 0x7d, 0xcb, 0xe4, 0x68, 0x0e, 0x1e, 0x42, 0xd2, 0xe9, 0x75, 0x45, 0x9b, 0x65] ∧
    digest .ripemd320 abc 3 =
      [0xde, 0x4c, 0x01, 0xb3, 0x05, 0x4f, 0x89, 0x30, 0xa7, 0x9d, 0x09, 0xae, 0x73, 0x8e, 0x92, 0x30, 0x1e, 0x5a, 0x17, 0x08, 0x5b, 0xef, 0xfd, 0xc1, 0xb8, 0xd1, 0x16, 0x71, 0x3e, 0x74, 0xf8, 0x2f, 0xa9, 0x42, 0xd6, 0x4c, 0xdb, 0xc4, 0x68, 0x2d] := by
  decide +kernel

theorem test_abc_tiger : digest .tiger abc 3 =
      [0x2a, 0xab, 0x14, 0x84, 0xe8, 0xc1, 0x58, 0xf2, 0xbf, 0xb8, 0xc5, 0xff, 0x41, 0xb5, 0x7a, 0x52, 0x51, 0x29, 0x13, 0x1c, 0x95, 0x7b, 0x5f, 0x93] := by
  decide +kernel

theorem test_abc_composite : digest .ed2k abc 3 =
      [0xa4, 0x48, 0x01, 0x7a, 0xaf, 0x21, 0xd8, 0x52, 0x5f, 0xc1, 0x0a, 0xe8, 0x7a, 0xa6, 0x72, 0x9d] ∧
    digest .tth abc 3 =
      [0x04, 0x87, 0xca, 0x26, 0x44, 0x3f, 0x59, 0xcf, 0xbc, 0x78, 0x0f, 0x3c, 0xa0, 0xce, 0x50, 0x9c, 0x8c, 0x35, 0x2c, 0x27, 0xc5, 0xdc, 0xca, 0x20] ∧
    digest .aich abc 3 =
      [0xdd, 0x37, 0x42, 0xec, 0x1a, 0x4d, 0x2a, 0x5b, 0x56, 0x3a, 0x2b, 0x62, 0xae, 0xf7, 0xfc, 0x4a, 0x46, 0xfa, 0x6c, 0xca] := by
  decide +kernel

/-- The Whirlpool S-box is the one that R903 constructs from its mini-boxes, whose rows are written here as R903 has them. -/
theorem test_whirlpool_sbox :
    let e := [0x1, 0xB, 0x9, 0xC, 0xD, 0x6, 0xF, 0x3, 0xE, 0x8, 0x7, 0x4, 0xA, 0x2, 0x5, 0x0]
    let ei := [0xF, 0x0, 0xD, 0x7, 0xB, 0xE, 0x5, 0xA, 0x9, 0x2, 0xC, 0x1, 0x3, 0x4, 0x8, 0x6]
    let r := [0x7, 0xC, 0xB, 0xD, 0xE, 0x4, 0x9, 0xF, 0x6, 0x3, 0x8, 0xA, 0x2, 0x5, 0x1, 0x0]
    whirlS = (List.range 256).map fun u =>
      let a := e.getD (u / 16) 0
      let b := ei.getD (u % 16) 0
      let x := r.getD (a ^^^ b) 0
      BitVec.ofNat 8 (e.getD (a ^^^ x) 0 * 16 + ei.getD (b ^^^ x) 0) := by decide +kernel

/-- Row 0 of the Whirlpool round constants 1 and 10 (table of R906), and a product of R902 worked by hand: 0x80 times 2 is 0x1D. -/
theorem test_whirlpool_constants : (whirlConst 1).take 8 = [0x18, 0x23, 0xC6, 0xE8, 0x87, 0xB8, 0x01, 0x4F] ∧
    (whirlConst 10).take 8 = [0xCA, 0x2D, 0xBF, 0x07, 0xAD, 0x5A, 0x83, 0x33] ∧ gfMul 0x80 0x02 = 0x1D := by decide +kernel

/-- The padding boundary (R505): SHA-1 of 55 and of 56 bytes "a" (table 3.4). -/
theorem test_padding_boundary : digest .sha1 (List.replicate 55 0x61) 55 =
      [0xc1, 0xc8, 0xbb, 0xdc, 0x22, 0x79, 0x6e, 0x28, 0xc0, 0xe1, 0x51, 0x63, 0xd2, 0x08, 0x99, 0xb6, 0x56, 0x21, 0xd6, 0x5a] ∧
    digest .sha1 (List.replicate 56 0x61) 56 =
      [0xc2, 0xdb, 0x33, 0x0f, 0x60, 0x83, 0x85, 0x4c, 0x99, 0xd4, 0xb5, 0xbf, 0xb6, 0xe8, 0xf2, 0x9f, 0x20, 0x1b, 0xe6, 0x99] := by
  decide +kernel

/-- The Merkle stack for five leaves (table 4.4): the unpaired last leaf is promoted. -/
theorem test_merkle_five : let nh := fun l r : Bytes => [0x28] ++ l ++ r ++ [0x29]
    merkleFold nh ([[1], [2], [3], [4], [5]].foldl (merklePush nh) merkleEmpty) =
      [0x28, 0x28, 0x28, 1, 2, 0x29, 0x28, 3, 4, 0x29, 0x29, 5, 0x29] := by decide +kernel

/-! ## The host's window -/

/-- V50, V51. -/
theorem test_constant_registers : [0x000, 0x004, 0x008, 0x00C, 0x03C].map (fun o => readBack State.reset o .w32) =
    [0x51464831, 0x00061104, 0x20001000, 0, 0] := by decide +kernel

/-- V52 to V55: AERR. -/
theorem test_access_errors : let aerr := fun e => statusWord (after State.reset e).status
    aerr (.read 0x010 .w8) = 0x10 ∧ aerr (.read 0x1002 .w32) = 0x10 ∧ aerr (.write 0x2000 .w8 5) = 0x10 ∧
    aerr (.read 0x040 .w32) = 0x10 ∧ aerr (.read 0x010 .w32) = 0 := by decide +kernel

/-- V56: byte order. -/
theorem test_byte_order : let t := after State.reset (.write 0x1000 .w32 0x64636261)
    t.ibuf = [(0, 0x61), (1, 0x62), (2, 0x63), (3, 0x64)] ∧ readBack t 0x1002 .w16 = 0x6463 ∧ readBack t 0x1003 .w8 = 0x64 := by
  decide +kernel

/-- V57, V58. -/
theorem test_status_write : let t := run State.reset 0x00000007
    let u := after t (.write 0x010 .w32 4)
    statusWord t.status = 0x00001006 ∧ statusWord u.status = 0x00001002 ∧ statusWord (after u (.write 0x010 .w32 2)).status = 0x00001000 ∧
    readBack (after State.reset (.write 0x038 .w32 0xFFFFFFFF)) 0x038 .w32 = 3 := by decide +kernel

/-- V59 to V63: the interrupt line. -/
theorem test_irq : let s := { State.reset with doneIe := true }
    let e := { State.reset with errIe := true }
    irqLine (run s 0) = true ∧ irqLine (after (run s 0) (.write 0x010 .w32 2)) = false ∧ irqLine (run e 0) = false ∧
    irqLine (run e 7) = true ∧ irqLine (run (run e 7) 0) = true := by decide +kernel

/-- R1510: a CMD write while a command runs is dropped with OVR; R1502: the soft reset abandons the command. -/
theorem test_busy_writes : let s := { State.reset with wait := 3, pcmd := 0x18, status := { resetStatus with busy := true } }
    (after s (.write 0x00C .w32 0x19)).pcmd = 0x18 ∧ statusWord (after s (.write 0x00C .w32 0x19)).status = 0x9 ∧
    statusWord (after s (.write 0x03C .w32 1)).status = 0 := by decide +kernel
/-! ## Witnesses: for each obligation with hypotheses, states and operands that meet them, one for each of its cases

`slotted` has slot 3, the last, set; its other slots are empty. -/

/-- The reset state with the ARG registers set and slot 3 set. -/
def slotted (sl : Slot) (a0 a1 : W32) (a2 a3 : W32 := 0) : State := (start abc a0 a1 a2 a3).setSlot 3 sl

/-- The reset state with the command word `w` latched and its time elapsed. -/
def latched (w : Nat) : State := State.reset.withFetchWord 32 w

/-- A state in which a command runs and has one step to wait, and the host has an event. -/
def waiting (e : HostEvent) : State :=
  { State.reset with status := { resetStatus with busy := true }, wait := 1, hostQueue := [e] }

theorem slotOk_slotted (mask : BitVec 17) (size : W64) (a0 a1 a2 a3 : W32) :
    SlotOk ((slotted (newSlot mask true size) a0 a1 a2 a3).slot 3) := slotOk_newSlot mask true size fun _ => rfl

theorem witness_DecodeOfEncode : (Instr.sAdd 255 15).wf = true ∧ (Instr.sNew 15).wf = true ∧ (Instr.dHash 255).wf = true := by decide

theorem witness_EncodeOfDecode : Sys2Proof.decode 0x000FFF02 = .ok (.sAdd 255 15) := rfl

/-- Both ends of each range of reserved opcodes (R312). -/
theorem witness_ReservedOpcodes : opField (latched 0x07).pcmd = 0x07 ∧ opField (latched 0x0B).pcmd = 0x0B ∧
    opField (latched 0x0F).pcmd = 0x0F ∧ opField (latched 0x13).pcmd = 0x13 ∧ opField (latched 0x17).pcmd = 0x17 ∧
    opField (latched 0x1C).pcmd = 0x1C ∧ opField (latched 0xFF).pcmd = 0xFF := by decide

theorem witness_AssembledWords : (Instr.sResult 255 15).wf = true := by decide

/-- A command runs and its time has elapsed; its word decodes, or ends with each of the two codes. -/
theorem witness_StepRunsCommand : (latched 0x18).status.busy = true ∧ (latched 0x18).wait = 0 ∧
    Sys2Proof.decode (latched 0x18).pcmd = .ok (.regSize 0) ∧ Sys2Proof.decode (latched 0x07).pcmd = .error .badOpcode ∧
    Sys2Proof.decode (latched 0x100).pcmd = .error .badField := ⟨rfl, rfl, rfl, rfl, rfl⟩

/-- The host acts while no command runs and while one waits; it has an event, or none. -/
theorem witness_StepPerformsHostEvent : ¬(State.reset.status.busy = true ∧ State.reset.wait = 0) ∧ State.reset.hostQueue = [] ∧
    ¬((waiting .waitIdle).status.busy = true ∧ (waiting .waitIdle).wait = 0) ∧ (waiting .waitIdle).hostQueue = [.waitIdle] := by
  decide

/-- Past the register region, past IBUF, astride its end, in OBUF, and a byte access to a register. -/
theorem witness_EveryCommandCompletes : (latched 0).status.busy = true ∧ (latched 0).wait = 0 ∧
    ¬(RegAccess 0x040 .w32 ∨ IbufAccess State.reset.params 0x040 .w32) ∧
    ¬(RegAccess 0x2000 .w8 ∨ IbufAccess State.reset.params 0x2000 .w8) ∧ ObufAccess State.reset.params 0x2000 .w8 ∧
    ¬(RegAccess 0x1FFE .w32 ∨ IbufAccess State.reset.params 0x1FFE .w32) ∧
    ¬(RegAccess 0x03C .w8 ∨ IbufAccess State.reset.params 0x03C .w8) ∧
    ¬ObufAccess State.reset.params 0x03C .w8 := by decide

/-- A word for each step of the order: RSV, SEL and SID that must be zero, SID = NSESS, SEL = 17 and 6, must-be-zero bits, ranges, and
a command that passes them all. -/
theorem witness_CheckOrder : State.reset.params.wf ∧
    opOfNat (opField (latched 0x0C).pcmd) = none ∧
    (opOfNat (opField (latched 0x00100004).pcmd) = some .sUpdate ∧ rsvField (latched 0x00100004).pcmd ≠ 0) ∧
    (opOfNat (opField (latched 0x00000100).pcmd) = some .nop ∧ selField (latched 0x00000100).pcmd ≠ 0) ∧
    (opOfNat (opField (latched 0x0001000A).pcmd) = some .dHash ∧ sidField (latched 0x0001000A).pcmd ≠ 0) ∧
    (opOfNat (opField (latched 0x00040001).pcmd) = some .sNew ∧ State.reset.params.nsess ≤ sidField (latched 0x00040001).pcmd) ∧
    (opOfNat (opField (latched 0x00031102).pcmd) = some .sAdd ∧ 17 ≤ selField (latched 0x00031102).pcmd ∧
      sidField (latched 0x00031102).pcmd < State.reset.params.nsess) ∧
    (opOfNat (opField (latched 0x00000610).pcmd) = some .encode ∧ 6 ≤ selField (latched 0x00000610).pcmd) := by decide

/-- The last steps of the order: a mask and flags one too large, operands one byte past IBUF, and operands that pass. -/
theorem witness_CheckOrder_operands : argBitsBad .sNew (start abc 0x20000 0) ∧ argBitsBad .dInit (start abc 0 2) ∧
    operandsBad .dHash (start abc 1 4096) ∧ operandsBad .detectAlg (start abc 0 0 4097 0) ∧
    (¬argBitsBad .sNew (start abc 0x1FFFF 1) ∧ ¬operandsBad .sNew (start abc 0x1FFFF 1)) ∧
    (¬argBitsBad .detectAlg (start abc 4096 0 0 4096) ∧ ¬operandsBad .detectAlg (start abc 4096 0 0 4096)) := by
  simp only [argBitsBad, operandsBad]
  decide

theorem witness_CheckOrderExamples : State.reset.params.wf ∧ (latched 0x00100004).pcmd = 0x00100004 ∧
    (latched 0x00001105).pcmd = 0x00001105 ∧ (latched 0x00041105).pcmd = 0x00041105 ∧ State.reset.params.nsess = 4 ∧
    (latched 0x000000FF).pcmd = 0x000000FF ∧
    ((slotted { emptySlot with final := true } 1 4096).slot 3).final = true ∧
    RunsPast (slotted { emptySlot with final := true } 1 4096) 4096 1 := by decide

/-- A command that ends with PARSE, and one that ends with another error. -/
theorem witness_FailureAtomicity : CompletionStep ((start [0x21] 1 0).withFetchWord 32 0x411) (next ((start [0x21] 1 0).withFetchWord 32 0x411)) ∧
    (next ((start [0x21] 1 0).withFetchWord 32 0x411)).status.code = .parse ∧
    CompletionStep (latched 0x07) (next (latched 0x07)) ∧ codeIsError (next (latched 0x07)).status.code = true :=
  ⟨⟨rfl, rfl, rfl⟩, by decide +kernel, ⟨rfl, rfl, rfl⟩, by decide +kernel⟩

/-- Two states that differ in slot 3 only, a command on slot 0, and one that names no slot. -/
theorem witness_SlotIndependence : (∃ t, exec (.sQuery 0) (slotted emptySlot 0 0) = .next t) ∧
    (slotted { emptySlot with en := 1 } 0 0).slots.length = (slotted emptySlot 0 0).slots.length ∧
    slotted { emptySlot with en := 1 } 0 0 = { slotted emptySlot 0 0 with slots := (slotted { emptySlot with en := 1 } 0 0).slots } ∧
    opUsesSid (opOf (.sQuery 0)) = true ∧
    (slotted { emptySlot with en := 1 } 0 0).slot 0 = (slotted emptySlot 0 0).slot 0 ∧
    (slotted { emptySlot with en := 1 } 0 0).slots ≠ (slotted emptySlot 0 0).slots ∧ opUsesSid (opOf .nop) = false :=
  ⟨⟨_, rfl⟩, rfl, rfl, rfl, rfl, by decide, rfl⟩

/-- A word of each opcode with a bit of RSV set, one with a SEL that must be zero, one with a SID that must be zero. -/
theorem witness_FieldsChecked : (∀ op ∈ [Op.nop, .sNew, .sAdd, .sRemove, .sUpdate, .sResult, .sQuery, .dInit, .dFinal, .dHash,
      .encode, .decode, .detectEnc, .regSize, .regName, .regFromName, .detectAlg],
      opField (latched (opNat op + 0x00100000)).pcmd = opNat op ∧ rsvField (latched (opNat op + 0x00100000)).pcmd ≠ 0) ∧
    (opField (latched 0x00000101).pcmd = opNat .sNew ∧ opUsesSel .sNew = false ∧ selField (latched 0x00000101).pcmd ≠ 0) ∧
    (opField (latched 0x00010018).pcmd = opNat .regSize ∧ opUsesSid .regSize = false ∧ sidField (latched 0x00010018).pcmd ≠ 0) := by
  decide

/-- R1203's cases: the first SID that names no slot, the first mask and flags that are too large, AICH without a size, and the last
mask and slot that pass. -/
theorem witness_SNewEffect : (slotted emptySlot 0 0).slots.length = (slotted emptySlot 0 0).params.nsess ∧
    (slotted emptySlot 0 0).params.nsess = 4 ∧ 2 ^ 17 ≤ (slotted emptySlot 0x20000 0).arg0.toNat ∧
    2 ≤ (slotted emptySlot 0 2).arg1.toNat ∧
    (let s := slotted emptySlot 0x10000 0;
      ¬(2 ^ 17 ≤ s.arg0.toNat ∨ 2 ≤ s.arg1.toNat) ∧ s.arg0.getLsbD 16 = true ∧ s.arg1.toNat = 0) ∧
    (let s := slotted emptySlot 0x1FFFF 1;
      ¬(2 ^ 17 ≤ s.arg0.toNat ∨ 2 ≤ s.arg1.toNat) ∧ ¬(s.arg0.getLsbD 16 = true ∧ s.arg1.toNat = 0)) := by decide

/-- The cases of R1206 and R1208: a finalised slot, a dirty one, an algorithm that is enabled, AICH without a size and with one. -/
theorem witness_SAddEffect : (let s := slotted (newSlot 0x1 false 0) 0 0;
      s.slots.length = s.params.nsess ∧ (s.slot 3).ctx.length = 17 ∧ (s.slot 3).final = false ∧ (s.slot 3).dirty = false ∧
      (s.slot 3).en.getLsbD 0 = true ∧ (s.slot 3).en.getLsbD 16 = false ∧ (s.slot 3).hasSize = false) ∧
    ((slotted { emptySlot with final := true } 0 0).slot 3).final = true ∧
    ((slotted { emptySlot with dirty := true } 0 0).slot 3).dirty = true ∧
    ((slotted { emptySlot with dirty := true } 0 0).slot 3).final = false ∧
    ((slotted (newSlot 0 true 5) 0 0).slot 3).hasSize = true ∧ ((slotted (newSlot 0 true 5) 0 0).slot 3).ctx.length = 17 := by decide

theorem witness_SRemoveEffect : (let s := slotted (newSlot 0x1 false 0) 0 0;
      s.slots.length = s.params.nsess ∧ (s.slot 3).final = false ∧ (s.slot 3).dirty = false ∧ (s.slot 3).en.getLsbD 0 = true ∧
      (s.slot 3).en.getLsbD 16 = false) ∧
    ((slotted { emptySlot with final := true } 0 0).slot 3).final = true ∧
    ((slotted { emptySlot with dirty := true } 0 0).slot 3).dirty = true ∧
    ((slotted { emptySlot with dirty := true } 0 0).slot 3).final = false := by decide

/-- R1210's cases: an operand one byte past IBUF; a finalised slot; TOTAL one too large and just not; an AICH size one too small and
just not. -/
theorem witness_SUpdateEffect : RunsPast (slotted emptySlot 1 4096) 4096 1 ∧
    (let s := slotted { emptySlot with final := true } 4096 0;
      s.slots.length = s.params.nsess ∧ ¬RunsPast s s.arg1 s.arg0 ∧ (s.slot 3).final = true) ∧
    (let s := slotted { emptySlot with total := 0xFFFFFFFFFFFFFFFE } 2 0;
      (s.slot 3).final = false ∧ 2 ^ 64 - 1 < (s.slot 3).total.toNat + s.arg0.toNat) ∧
    (let s := slotted { emptySlot with total := 0xFFFFFFFFFFFFFFFE } 1 0;
      ¬2 ^ 64 - 1 < (s.slot 3).total.toNat + s.arg0.toNat ∧ (s.slot 3).en.getLsbD 16 = false) ∧
    (let s := slotted (newSlot 0x10000 true 2) 3 0;
      (s.slot 3).en.getLsbD 16 = true ∧ (s.slot 3).size.toNat < (s.slot 3).total.toNat + s.arg0.toNat) ∧
    (let s := slotted (newSlot 0x10000 true 3) 3 0;
      ¬(s.slot 3).size.toNat < (s.slot 3).total.toNat + s.arg0.toNat) := by decide +kernel

/-- R1213's cases: an algorithm that is not enabled, AICH one byte short, AICH with all its bytes. -/
theorem witness_SResultEffect : SlotOk ((slotted (newSlot 0x10000 true 1) 0 0 0 0).slot 3) ∧
    SlotOk ((slotted (newSlot 0x10000 true 0) 0 0 0 0).slot 3) ∧
    ((slotted (newSlot 0x10000 true 1) 0 0).slot 3).en.getLsbD 15 = false ∧
    ((slotted (newSlot 0x10000 true 1) 0 0).slot 3).en.getLsbD 16 = true ∧
    ((slotted (newSlot 0x10000 true 1) 0 0).slot 3).total ≠ ((slotted (newSlot 0x10000 true 1) 0 0).slot 3).size ∧
    ((slotted (newSlot 0x10000 true 0) 0 0).slot 3).en.getLsbD 16 = true ∧
    ((slotted (newSlot 0x10000 true 0) 0 0).slot 3).total = ((slotted (newSlot 0x10000 true 0) 0 0).slot 3).size :=
  ⟨slotOk_slotted _ _ _ _ _ _, slotOk_slotted _ _ _ _ _ _, by decide, by decide, by decide, by decide, by decide⟩

theorem witness_SQueryEffect : State.reset.params.nsess ≤ 4 ∧ ¬State.reset.params.nsess ≤ 3 := by decide

/-- R1220's cases: flags one too large, AICH without a size, AICH with one. -/
theorem witness_DInitEffect : (slotted emptySlot 0 0).slots.length = (slotted emptySlot 0 0).params.nsess ∧
    2 ≤ (slotted emptySlot 0 2).arg1.toNat ∧ (slotted emptySlot 0 0).arg1.toNat = 0 ∧
    ¬(2 ≤ (slotted emptySlot 0 1).arg1.toNat ∨ (slotted emptySlot 0 1).arg1.toNat = 0) := by decide

/-- R1222's cases are those of R1213, over the same slots. -/
theorem witness_DFinalEffect : (slotted (newSlot 0x10000 true 0) 0 0).slots.length = (slotted (newSlot 0x10000 true 0) 0 0).params.nsess ∧
    SlotOk ((slotted (newSlot 0x10000 true 0) 0 0 0 0).slot 3) ∧
    ((slotted (newSlot 0x10000 true 0) 0 0).slot 3).en.getLsbD 0 = false ∧
    ((slotted (newSlot 0x10000 true 0) 0 0).slot 3).en.getLsbD 16 = true ∧
    ((slotted (newSlot 0x10000 true 0) 0 0).slot 3).total = ((slotted (newSlot 0x10000 true 0) 0 0).slot 3).size :=
  ⟨by decide, slotOk_slotted _ _ _ _ _ _, by decide, by decide, by decide⟩

/-- An operand one byte past IBUF, and one that ends with IBUF. -/
theorem witness_DHashEffect : RunsPast (start abc 1 4096) 4096 1 ∧ ¬RunsPast (start abc 4096 0) 0 4096 := by decide

theorem witness_DHashEqualsSession : State.reset.slots.length = State.reset.params.nsess ∧ 3 < State.reset.params.nsess ∧
    ¬RunsPast (start abc 0 0) 0 3 ∧ OperandWritten (start abc 0 0) 0 3 := by
  refine ⟨rfl, by decide, by decide, ?_⟩
  intro i hi
  have h : i = 0 ∨ i = 1 ∨ i = 2 := by have : (3 : W32).toNat = 3 := rfl; omega
  rcases h with h | h | h <;> subst h <;> rfl

/-- "a" then "bc" feed a CRC32 session as "abc" does. -/
theorem witness_CommandChunkInvariance : ([[0x61], [0x62, 0x63]] : List Bytes) ≠ [] ∧
    (∃ sl, Feeds 3 (newSlot 1 false 0) [[0x61], [0x62, 0x63]] sl) ∧ ∃ sl, Feeds 3 (newSlot 1 false 0) [abc] sl := by
  refine ⟨by decide, ⟨_, slotted (newSlot 1 false 0) 1 0, _, rfl, by decide, by decide +kernel, rfl, rfl,
    { run (slotted (newSlot 1 false 0) 1 0) 0x00030004 with arg0 := 2, arg1 := 1 }, _, rfl, by decide +kernel, by decide +kernel,
    rfl, rfl, rfl⟩, ⟨_, slotted (newSlot 1 false 0) 3 0, _, rfl, by decide, by decide +kernel, rfl, rfl, rfl⟩⟩

/-- Both sides of the boundary of R505 for each pair of block and length field. -/
theorem witness_PaddedTail : (let c := fun n : Nat => ({ h := [], buf := List.replicate n 0, n := BitVec.ofNat 64 n } : MdCtx (List W32));
      sha1Alg.lenBytes + 1 ≤ sha1Alg.blockBytes ∧ sha1Alg.blockBytes = 64 ∧ sha1Alg.lenBytes = 8 ∧
      (c 55).buf.length = (c 55).n.toNat % 64 ∧ (c 56).buf.length = (c 56).n.toNat % 64) ∧
    (let c := fun n : Nat => ({ h := [], buf := List.replicate n 0, n := BitVec.ofNat 64 n } : MdCtx (List W64));
      sha512Alg.blockBytes = 128 ∧ sha512Alg.lenBytes = 16 ∧
      (c 111).buf.length = (c 111).n.toNat % 128 ∧ (c 112).buf.length = (c 112).n.toNat % 128) ∧
    (let c := fun n : Nat => ({ h := [], buf := List.replicate n 0, n := BitVec.ofNat 64 n } : MdCtx Bytes);
      whirlAlg.blockBytes = 64 ∧ whirlAlg.lenBytes = 32 ∧
      (c 31).buf.length = (c 31).n.toNat % 64 ∧ (c 32).buf.length = (c 32).n.toNat % 64) := by decide +kernel

theorem witness_DigestLength : abc.length < 2 ^ 64 := by decide

/-- One chunk exactly, and one byte more. -/
theorem witness_Ed2kClosedForm : (List.replicate 9728000 (0 : Byte)).length < 2 ^ 64 ∧
    (List.replicate 9728000 (0 : Byte)).length ≤ 9728000 ∧ ¬(List.replicate 9728001 (0 : Byte)).length ≤ 9728000 := by
  simp only [List.length_replicate]; decide

theorem witness_MerkleRoot : ([abc] : List Bytes) ≠ [] ∧ ([abc] : List Bytes).length < 2 ^ 56 := by decide

theorem witness_TthClosedForm : (List.replicate 1025 (0 : Byte)).length < 2 ^ 64 := by simp only [List.length_replicate]; decide

theorem witness_AichClosedForm : (List.replicate 9728001 (0 : Byte)).length < 2 ^ 64 ∧
    (List.replicate 184320 (0 : Byte)).length ≤ 184320 := by
  simp only [List.length_replicate]; decide

theorem witness_EncodeBitStream : 4 < (8 * abc.length + symBits .base32 - 1) / symBits .base32 ∧
    streamValue abc (4 * symBits .base32) (symBits .base32) = 6 := by decide

theorem witness_EncodeFits : 16 ≤ (List.replicate 16 (0 : Byte)).length ∧ ({ nsess := 1, ibufSize := 64, obufSize := 128 } : Config.Params).wf ∧
    (List.replicate 64 (0 : Byte)).length ≤ 64 := by decide

/-- "Zh" for one byte: its last symbol has discarded bits that are not zero. -/
theorem witness_CanonicalText : ValidSymbols .base64 1 [25, 33] ∧ clearLast (2 * symBits .base64 - 8 * 1) [25, 33] = [25, 32] := by
  refine ⟨⟨by decide, ?_⟩, by decide⟩
  intro v hv
  simp only [List.mem_cons, List.not_mem_nil, or_false] at hv
  rcases hv with h | h <;> subst h <;> decide

/-- "Zm9v" before a padding symbol, and before '!'. -/
theorem witness_DecodeStops : (∀ c ∈ ([0x5A, 0x6D, 0x39, 0x76] : Bytes), c ∈ alphabet .base64) ∧ (0x21 : Byte) ∉ alphabet .base64 ∧
    (0x21 : Byte) ≠ padSymbol := by decide +kernel

/-- A text that is detected as BASE16L, past BASE16; and one that is not detected. -/
theorem witness_DetectFirstEncoding : detectEnc abc = some .base16l ∧ encId .base16 < encId .base16l ∧ detectEnc [0x21] = none := by
  decide +kernel

/-- Operands one byte past IBUF and at its end, with the smallest and the default parameters. -/
theorem witness_EncodeEffect : State.reset.params.wf ∧ RunsPast (start abc 1 4096) 4096 1 ∧ ¬RunsPast (start abc 4096 0) 0 4096 ∧
    (resetWith { nsess := 1, ibufSize := 64, obufSize := 128 }).params.wf := by decide

/-- The two outcomes of a decode. -/
theorem witness_DecodeEffect : State.reset.params.wf ∧ RunsPast (start abc 1 4096) 4096 1 ∧ ¬RunsPast (start [0x21] 1 0) 0 1 ∧
    decodeText .base64 (operand (start [0x21] 1 0)) = .parse 0 ∧ decodeText .base16l (operand (start abc 3 0)) = .ok [0xAB] 3 := by
  decide +kernel

theorem witness_DetectEncEffect : RunsPast (start abc 1 4096) 4096 1 ∧ ¬RunsPast (start abc 3 0) 0 3 ∧
    detectEnc (operand (start abc 3 0)) = some .base16l ∧ detectEnc (operand (start [0x21] 1 0)) = none := by decide +kernel

theorem witness_RegSizeEffect : 17 ≤ 17 := Nat.le_refl _

theorem witness_RegNameEffect : 17 ≤ 255 := by decide

/-- A name, and an operand that is none. -/
theorem witness_RegFromNameEffect : RunsPast (start abc 7 4090) 4090 7 ∧ ¬RunsPast (start [0x54, 0x54, 0x48] 3 0) 0 3 ∧
    algName .tth = operand (start [0x54, 0x54, 0x48] 3 0) ∧ ∀ a, algName a ≠ operand (start abc 3 0) := by
  refine ⟨by decide, by decide, by decide +kernel, fun a => ?_⟩
  cases a <;> decide +kernel

/-- Each operand one byte past IBUF; the CRC32 of "abc", which stands first; and a candidate digest of no length. -/
theorem witness_DetectAlgEffect : RunsPast (start abc 1 4096) 4096 1 ∧ ¬RunsPast (start abc 3 0 4 4093) 0 3 ∧
    RunsPast (start abc 3 0 4 4093) 4093 4 ∧
    (let s := start (abc ++ [0x35, 0x24, 0x41, 0xC2]) 3 0 4 3;
      ¬(RunsPast s s.arg1 s.arg0 ∨ RunsPast s s.arg3 s.arg2) ∧
      digest .crc32 (operand s) 3 = operandBytes s (s.draws + 1) s.arg3 s.arg2) ∧
    (∀ b, ¬algId b < algId .crc32) ∧
    (let s := start abc 3 0;
      ¬(RunsPast s s.arg1 s.arg0 ∨ RunsPast s s.arg3 s.arg2) ∧ operandBytes s (s.draws + 1) s.arg3 s.arg2 = [] ∧
      digest .crc32 (operand s) 3 ≠ []) := by
  refine ⟨by decide, by decide, by decide, by decide +kernel, fun b => Nat.not_lt_zero _, by decide +kernel⟩

theorem witness_DetectionFinds : abc.length < 2 ^ 64 ∧ (List.replicate 9728000 (0 : Byte)).length ≤ 9728000 := by
  simp only [List.length_replicate]; decide

theorem witness_ResetState : (resetWith { nsess := 16, ibufSize := 4096, obufSize := 8192 }).params =
    { nsess := 16, ibufSize := 4096, obufSize := 8192 } ∧ ({ nsess := 16, ibufSize := 4096, obufSize := 8192 } : Config.Params).wf :=
  ⟨rfl, by decide⟩

theorem witness_SoftReset : (1 : W32).getLsbD 0 = true ∧ (0xFFFFFFFE : W32).getLsbD 0 = false := by decide

/-- Beyond the registers, misaligned, below IBUF, past IBUF, past OBUF, a byte of a register; and for writes OBUF itself. -/
theorem witness_UnadmittedAccess : (∀ a ∈ ([(0x040, .w32), (0x012, .w32), (0xFFF, .w8), (0x2000 + 0x2000, .w8), (0x000, .w16), (0x1001, .w16)] : List (Nat × Width)),
      ¬(RegAccess a.1 a.2 ∨ IbufAccess State.reset.params a.1 a.2 ∨ ObufAccess State.reset.params a.1 a.2)) ∧
    ¬(RegAccess 0x2000 .w32 ∨ IbufAccess State.reset.params 0x2000 .w32) := by decide

/-- The first and the last bytes of IBUF and of OBUF, in each width. -/
theorem witness_BufferByteOrder : State.reset.params.wf ∧ State.reset.status.busy = false ∧
    IbufAccess State.reset.params 0x1000 .w32 ∧ IbufAccess State.reset.params 0x1FFC .w32 ∧
    IbufAccess State.reset.params 0x1FFE .w16 ∧ IbufAccess State.reset.params 0x1FFF .w8 ∧
    ObufAccess State.reset.params 0x2000 .w32 ∧ ObufAccess State.reset.params 0x3FFE .w16 ∧
    ObufAccess State.reset.params 0x3FFF .w8 := by decide

theorem witness_ReadsHaveNoSideEffect : RegAccess 0x03C .w32 ∧ IbufAccess State.reset.params 0x1FFF .w8 ∧
    ObufAccess State.reset.params 0x3FFC .w32 := by decide

theorem witness_RegistersRead : State.reset.params.wf ∧ State.reset.status.busy = false := by decide

theorem witness_RegistersWrite : State.reset.status.busy = false := rfl

theorem witness_WritesWhileBusy : (waiting .idle).status.busy = true ∧ IbufAccess (waiting .idle).params 0x1FFC .w32 ∧
    (1 : W32).getLsbD 0 = true ∧ (0xFFFFFFFE : W32).getLsbD 0 = false := by decide

theorem witness_ReadsWhileBusy : (waiting .idle).status.busy = true ∧ (waiting .idle).params.wf ∧
    IbufAccess (waiting .idle).params 0x1FFC .w32 := by decide

/-- A write of 1 clears each flag while a command waits. -/
theorem witness_StickyFlags :
    let s := fun v => { waiting (.write 0x010 .w32 v) with
      status := { resetStatus with busy := true, done := true, err := true, ovr := true, aerr := true } }
    (s 2).status.done = true ∧ step (s 2) = .next (next (s 2)) ∧ (next (s 2)).status.done = false ∧
    step (s 4) = .next (next (s 4)) ∧ (next (s 4)).status.err = false ∧
    step (s 8) = .next (next (s 8)) ∧ (next (s 8)).status.ovr = false ∧
    step (s 16) = .next (next (s 16)) ∧ (next (s 16)).status.aerr = false ∧ CompletionStep (latched 0) (next (latched 0)) :=
  ⟨rfl, rfl, by decide +kernel, rfl, by decide +kernel, rfl, by decide +kernel, rfl, by decide +kernel, rfl, rfl, rfl⟩

/-- A machine with both enables set, whose DONE and ERR are as given and whose host's next event is `e`. -/
def raising (done err : Bool) (e : HostEvent) : State :=
  { State.reset with status := { resetStatus with done := done, err := err }, doneIe := true, errIe := true, hostQueue := [e] }

/-- The line falls on the clearing of the flag that drives it, of the enable bit that drives it, and on a reset; it does not fall when
the enable bit that does not drive it is cleared. -/
theorem witness_InterruptLine :
    (irqLine (raising true false .idle) = true ∧ irqLine (raising false true .idle) = true) ∧
    (∀ d r e, step (raising d r e) = .next (next (raising d r e))) ∧
    (irqLine (next (raising true false (.write 0x010 .w32 2))) = false ∧
      irqLine (next (raising false true (.write 0x010 .w32 4))) = false) ∧
    (irqLine (next (raising true false (.write 0x038 .w32 2))) = false ∧
      irqLine (next (raising false true (.write 0x038 .w32 1))) = false) ∧
    (irqLine (next (raising true false (.write 0x038 .w32 1))) = true ∧
      irqLine (next (raising false true (.write 0x038 .w32 2))) = true) ∧
    irqLine (next (raising true true .hardReset)) = false :=
  ⟨by decide, fun _ _ _ => rfl, by decide +kernel, by decide +kernel, by decide +kernel, by decide +kernel⟩

theorem witness_OperandsStable : (waiting (.write 0x014 .w32 5)).status.busy = true ∧
    step (waiting (.write 0x014 .w32 5)) = .next (next (waiting (.write 0x014 .w32 5))) ∧
    (next (waiting (.write 0x014 .w32 5))).status.busy = true := ⟨rfl, rfl, by decide +kernel⟩

theorem witness_BusyEnds : (waiting .idle).status.busy = true ∧ (latched 0).status.busy = true ∧ (latched 0).wait = 0 := by decide

theorem witness_LineRuns : State.reset.status.busy = false ∧ (Instr.sUpdate 2).wf = true ∧
    ({ State.reset with hostQueue := asmLine (.sUpdate 2) [(.len, 3), (.off, 0)] ++ [.idle] } : State).hostQueue =
      asmLine (.sUpdate 2) [(.len, 3), (.off, 0)] ++ [.idle] := ⟨rfl, rfl, rfl⟩

/-- A machine with the smallest parameters, written buffers and a session of all algorithms, whose next step runs S_UPDATE. -/
def busyMachine : State :=
  { resetWith { nsess := 1, ibufSize := 64, obufSize := 128 } with
    ibuf := [(0, 0x61), (63, 0x62)], obuf := [(0, 0x63)], olen := 1, arg0 := 1, pcmd := 0x04
    status := { resetStatus with busy := true }, slots := [newSlot 0x1FFFF true 3] }

theorem witness_InvariantKeptByStep : Safety.Inv busyMachine ∧ ∃ t, step busyMachine = .next t := by
  refine ⟨⟨by decide, ⟨by decide, by decide, by decide⟩, ⟨by decide, by decide⟩, by decide, ?_⟩, ⟨_, rfl⟩⟩
  intro sl h
  have h' : sl = newSlot 0x1FFFF true 3 := by simpa [busyMachine] using h
  exact h' ▸ slotOk_newSlot _ _ _ fun _ => rfl

theorem witness_InvariantHoldsAtReset : ({ nsess := 16, ibufSize := 4096, obufSize := 8192 } : Config.Params).wf ∧
    ({ nsess := 1, ibufSize := 64, obufSize := 128 } : Config.Params).wf := by decide

end Sys2Proof.Tests
end

section
/-! SUPPORT. How long the outputs of the codec are: an encoding has R406's length, and a decoding has at most one byte for each
character. -/

namespace Sys2Proof.Machine

/-- `k` rounded up to whole groups of `g`: the symbols and their padding (R406). -/
theorem add_pad_eq_mul_ceil (k : Nat) {g : Nat} (hg : 0 < g) :
    k + (if k % g = 0 then 0 else g - k % g) = g * ((k + g - 1) / g) := by
  have hk := Nat.div_add_mod k g
  have hlt := Nat.mod_lt k hg
  by_cases h0 : k % g = 0
  · have hq : (k + g - 1) / g = k / g := by
      rw [Nat.div_eq_iff hg, Nat.mul_comm]; omega
    rw [if_pos h0, hq]; omega
  · have hq : (k + g - 1) / g = k / g + 1 := by
      rw [Nat.div_eq_iff hg, Nat.add_mul, Nat.mul_comm (k / g)]; omega
    rw [if_neg h0, hq, Nat.mul_add]; omega

theorem groupSyms_pos (e : Enc) : 0 < groupSyms e := by cases e <;> decide

/-- The length of an encoding: its symbols, in whole groups (R405, R406). -/
theorem length_encodeText (e : Enc) (b : Bytes) :
    (encodeText e b).length = groupSyms e * ((symCount e (8 * b.length) + groupSyms e - 1) / groupSyms e) := by
  rw [← add_pad_eq_mul_ceil _ (groupSyms_pos e)]
  simp [encodeText, padCount]

/-- Base16 has two symbols for each byte and no padding. -/
theorem length_encodeText_base16 (b : Bytes) :
    (encodeText .base16 b).length = 2 * b.length ∧ (encodeText .base16l b).length = 2 * b.length := by
  simp only [length_encodeText, symCount, groupSyms, symBits]
  omega

/-- An encoding is never longer than twice its input filled up to 16 bytes: Base32 pads by at most 7 symbols, which from 16 bytes on
is no more than what it saves on Base16. -/
theorem length_encodeText_le (e : Enc) (b : Bytes) : (encodeText e b).length ≤ 2 * max 16 b.length := by
  rw [length_encodeText]
  cases e <;> simp only [symCount, groupSyms, symBits] <;> omega

/-- Each character adds at most one byte to the output (R410). -/
theorem length_decodeFrom_le (e : Enc) (t : Bytes) : ∀ (i acc nb : Nat) (out bs : Bytes) (used : Nat),
    decodeFrom e t i acc nb out = .ok bs used → bs.length ≤ out.length + t.length := by
  induction t with
  | nil =>
    intro i acc nb out bs used h
    obtain ⟨rfl, -⟩ : out = bs ∧ i = used := by simpa [decodeFrom] using h
    simp
  | cons c cs ih =>
    intro i acc nb out bs used h
    simp only [decodeFrom] at h
    cases hl : lut e c with
    | stop =>
      obtain ⟨rfl, -⟩ : out = bs ∧ i = used := by simpa [hl] using h
      simp
    | invalid => simp [hl] at h
    | val v =>
      simp only [hl] at h
      split at h
      · have hle := ih _ _ _ _ _ _ h
        simp only [List.length_append, List.length_cons, List.length_nil] at hle ⊢
        omega
      · have hle := ih _ _ _ _ _ _ h
        simp only [List.length_cons]
        omega

/-- A decoding is no longer than its text. -/
theorem length_decodeText_le {e : Enc} {t bs : Bytes} {used : Nat} (h : decodeText e t = .ok bs used) :
    bs.length ≤ t.length := by
  simpa using length_decodeFrom_le e t 0 0 0 [] bs used h

end Sys2Proof.Machine

namespace Sys2Proof.Proofs

open Sys2Proof.Machine

/-- Settles O32: the length of R406, and Base16's as the bound of every other encoding's from 16 bytes on; below, the 64 bytes that IBUF
has at least leave OBUF room enough. -/
theorem encodeFits : Obligations.EncodeFits := by
  refine ⟨length_encodeText, length_encodeText_base16, fun e b hb => ?_, fun p e b hp hb => ?_⟩
  · have hle := length_encodeText_le e b
    rwa [Nat.max_eq_right hb] at hle
  · obtain ⟨-, -, hi, -, ho, -⟩ := hp
    calc (encodeText e b).length ≤ 2 * max 16 b.length := length_encodeText_le e b
      _ ≤ 2 * p.ibufSize := by omega
      _ ≤ p.obufSize := ho

end Sys2Proof.Proofs
end

section
/-! SUPPORT. The length of a digest: that of R130 for every context the commands keep. -/

namespace Sys2Proof.Machine

open Sys2Proof.Safety

/-- `Out` of a 32-bit engine gives the declared digest length (R130, R209). -/
theorem length_out_md32Of {a : Alg} {c : MdCtx (List W32)} (hk : kindOk a (.md32 c)) {h : List W32}
    (hh : h.length = chainWords a) : ((md32Of a).out h).length = digestLen a := by
  cases a with
  | md4 => exact (length_outLe32 h).trans (by rw [hh]; rfl)
  | md5 => exact (length_outLe32 h).trans (by rw [hh]; rfl)
  | sha1 => exact (length_outBe32 h).trans (by rw [hh]; rfl)
  | sha224 => exact (length_outBe32 (h.take 7)).trans (by rw [List.length_take, hh]; rfl)
  | sha256 => exact (length_outBe32 h).trans (by rw [hh]; rfl)
  | ripemd128 => exact (length_outLe32 h).trans (by rw [hh]; rfl)
  | ripemd160 => exact (length_outLe32 h).trans (by rw [hh]; rfl)
  | ripemd256 => exact (length_outLe32 h).trans (by rw [hh]; rfl)
  | ripemd320 => exact (length_outLe32 h).trans (by rw [hh]; rfl)
  | _ => exact hk.elim

/-- `Out` of a 64-bit engine gives the declared digest length (R130, R209). -/
theorem length_out_md64Of {a : Alg} {c : MdCtx (List W64)} (hk : kindOk a (.md64 c)) {h : List W64}
    (hh : h.length = chainWords a) : ((md64Of a).out h).length = digestLen a := by
  cases a with
  | sha384 => exact (length_outBe64 (h.take 6)).trans (by rw [List.length_take, hh]; rfl)
  | sha512 => exact (length_outBe64 h).trans (by rw [hh]; rfl)
  | tiger => exact (length_outLe64 h).trans (by rw [hh]; rfl)
  | _ => exact hk.elim

/-- The ED2K digest length, with one chunk or with more (R1104). -/
theorem length_ed2kFinal {n : Nat} {c : Ed2kCtx} (h : Ed2kOk n c) : (ed2kFinal c).length = 16 := by
  unfold ed2kFinal
  split
  · exact length_mdFinal_md4 _ h.inner.1
  · exact length_mdFinal_md4 _ (mdFold_shape keeps_md4 _ _ _ h.outer.1 (by
      rw [h.outer.2.2]; exact Nat.mod_lt _ keeps_md4.2.1)).1

/-- The TTH digest length: an open or only leaf is pushed first, so that Fold finds a hash (R1123). -/
theorem length_tthFinal {n : Nat} {c : TthCtx} (h : TthOk n c) (hn : n < 2 ^ 64) : (tthFinal c).length = 24 := by
  have hcount : c.leaves.count.toNat + 1 < 2 ^ 56 := by
    have := h.total; simp only [Config.leafBytes] at this; omega
  have hleaf : (mdFinal tigerAlg c.lctx).length = 24 := length_mdFinal_tiger _ h.leaf.1
  unfold tthFinal
  split
  · have hpush := merkleOk_push (nh := nodeHashTth) h.leaves (by omega) _ hleaf length_nodeHashTth
    exact length_merkleFold hpush (Nat.succ_pos _) hcount length_nodeHashTth
  · next hnone =>
    have hpos : 0 < c.leaves.count.toNat := Nat.pos_of_ne_zero fun h0 => hnone (.inr (BitVec.eq_of_toNat_eq h0))
    exact length_merkleFold h.leaves hpos (by omega) length_nodeHashTth

/-- The part accumulator at Final holds a bounded number of hashes, and one at least unless a chunk is closed (R1143). -/
theorem merkleOk_aichFinalParts {size : W64} {n : Nat} {c : AichCtx} (h : AichOk size n c) :
    ∃ k, MerkleOk 20 k (aichFinalParts c) ∧ k < 2 ^ 56 ∧ (k = 0 → c.chunks.count ≠ 0) := by
  have hcount : c.parts.count.toNat + 1 < 2 ^ 56 := by
    have h1 := h.chunk; have h2 := h.cpos_lt
    simp only [Config.partBytes, Config.chunkBytes] at h1 h2; omega
  have hpart : (mdFinal sha1Alg c.pctx).length = 20 := length_mdFinal_sha1 _ h.part.1
  unfold aichFinalParts
  split
  · exact ⟨_, merkleOk_push (nh := nodeHashAich) h.parts (by omega) _ hpart length_nodeHashAich, hcount, by simp⟩
  · next hnone =>
    exact ⟨_, h.parts, by omega, fun h0 hc => hnone (.inr ⟨BitVec.eq_of_toNat_eq h0, hc⟩)⟩

/-- The chunk accumulator at Final holds a hash, and no more than the stack has room for (R1143). -/
theorem merkleOk_aichFinalChunks {size : W64} {n : Nat} {c : AichCtx} (h : AichOk size n c) (hn : n < 2 ^ 64) :
    ∃ k, MerkleOk 20 k (aichFinalChunks c) ∧ 0 < k ∧ k < 2 ^ 56 := by
  have hcount : c.chunks.count.toNat + 1 < 2 ^ 56 := by
    have := h.total; simp only [Config.chunkBytes] at this; omega
  obtain ⟨k, hparts, hk, hsome⟩ := merkleOk_aichFinalParts h
  unfold aichFinalChunks
  split
  · next h0 =>
    have hne : c.chunks.count ≠ 0 := hsome (by rw [← hparts.1, h0]; rfl)
    exact ⟨_, h.chunks, Nat.pos_of_ne_zero fun e => hne (BitVec.eq_of_toNat_eq e), by omega⟩
  · next h0 =>
    have hpos : 0 < k := Nat.pos_of_ne_zero fun e => h0 (BitVec.eq_of_toNat_eq (hparts.1.trans e))
    have hfold := length_merkleFold hparts hpos hk length_nodeHashAich
    exact ⟨_, merkleOk_push (nh := nodeHashAich) h.chunks (by omega) _ hfold length_nodeHashAich, Nat.succ_pos _, hcount⟩

/-- The AICH digest length (R1143). -/
theorem length_aichFinal {size : W64} {n : Nat} {c : AichCtx} (h : AichOk size n c) (hn : n < 2 ^ 64) :
    (aichFinal c).length = 20 := by
  obtain ⟨k, hchunks, hpos, hlt⟩ := merkleOk_aichFinalChunks h hn
  exact length_merkleFold hchunks hpos hlt length_nodeHashAich

/-- The CRC32 digest length (R521). -/
theorem length_crcFinal (r : W32) : (crcFinal r).length = 4 := by
  rw [crcFinal, toBe32, length_toBeN]

/-- `Final` of a context gives the declared digest length of its algorithm (R530, R130). -/
theorem length_finalCtx {a : Alg} {size : W64} {n : Nat} {c : Ctx} (h : CtxOk a size n c) (hn : n < 2 ^ 64) :
    (finalCtx a c).length = digestLen a := by
  cases c with
  | crc r => cases (show a = .crc32 from h); exact length_crcFinal r
  | md32 c =>
    obtain ⟨hkind, hmd⟩ := h
    exact length_mdFinal (keeps_md32Of a c hkind) c hmd.1 fun _ => length_out_md32Of hkind
  | md64 c =>
    obtain ⟨hkind, hmd⟩ := h
    exact length_mdFinal (keeps_md64Of a c hkind) c hmd.1 fun _ => length_out_md64Of hkind
  | mat c =>
    obtain ⟨rfl, hmd⟩ := h
    exact length_mdFinal keeps_whirl c hmd.1 fun _ hh => hh
  | ed2k c => obtain ⟨rfl, hc⟩ := h; exact length_ed2kFinal hc
  | tth c => obtain ⟨rfl, hc⟩ := h; exact length_tthFinal hc hn
  | aich c => obtain ⟨rfl, hc⟩ := h; exact length_aichFinal hc hn

/-- The digest of a message that the 64-bit counter can count has the declared length of its algorithm (R16, R530). -/
theorem length_digest (a : Alg) {m : Bytes} (size : W64) (hm : m.length < 2 ^ 64) :
    (digest a m size).length = digestLen a := by
  have hctx := ctxOk_absorb (ctxOk_init a size) m (by omega)
  exact length_finalCtx hctx (by omega)

theorem digestLen_le (a : Alg) : digestLen a ≤ 64 := by cases a <;> decide

theorem length_algName_le (a : Alg) : (algName a).length ≤ 9 := by cases a <;> decide

end Sys2Proof.Machine
end

section
/-! SUPPORT. What the session commands keep of a slot (R116, R118). -/

namespace Sys2Proof.Machine

open Sys2Proof.Safety

/-- The contexts of a slot: present exactly for the enabled algorithms, each with TOTAL bytes absorbed (R116, R118). -/
def CtxsOk (sl : Slot) : Prop :=
  ∀ a, (slotCtx sl a).isSome = slotEn sl a ∧ ∀ c, slotCtx sl a = some c → CtxOk a sl.size sl.total.toNat c

/-- The contexts' part of `SlotOk`, with presence and shape apart. -/
theorem slotOk_iff (sl : Slot) : SlotOk sl ↔
    sl.ctx.length = Config.nalg ∧ CtxsOk sl ∧ (sl.dirty = false → sl.total = 0) ∧ (sl.hasSize = false → sl.size = 0) ∧
      (slotEn sl .aich = true → sl.hasSize = true ∧ sl.total.toNat ≤ sl.size.toNat) := by
  refine and_congr_right fun _ => and_congr_left fun _ => forall_congr' fun a => ?_
  cases slotCtx sl a with
  | none => exact ⟨fun h => ⟨h.symm, fun _ h => nomatch h⟩, fun h => h.1.symm⟩
  | some c => exact ⟨fun h => ⟨h.1.symm, fun _ e => Option.some.inj e ▸ h.2⟩, fun h => ⟨h.1.symm, h.2 c rfl⟩⟩

/-- An enabled algorithm has a context that has absorbed TOTAL bytes. -/
theorem exists_slotCtx {sl : Slot} (h : SlotOk sl) {a : Alg} (he : slotEn sl a = true) :
    ∃ c, slotCtx sl a = some c ∧ CtxOk a sl.size sl.total.toNat c := by
  obtain ⟨-, hctx, -⟩ := (slotOk_iff sl).1 h
  obtain ⟨hsome, hok⟩ := hctx a
  obtain ⟨c, hc⟩ := Option.isSome_iff_exists.1 (hsome.trans he)
  exact ⟨c, hc, hok c hc⟩

/-- The digest of an enabled algorithm has its declared length (R1213, R1222). -/
theorem length_slotDigest {sl : Slot} (h : SlotOk sl) {a : Alg} (he : slotEn sl a = true) :
    (slotDigest sl a).length = digestLen a := by
  obtain ⟨c, hc, hok⟩ := exists_slotCtx h he
  simpa [slotDigest, hc] using length_finalCtx hok sl.total.isLt

/-- The empty slot is as the commands keep it (R1503). -/
theorem slotOk_emptySlot : SlotOk emptySlot := slotOk_newSlot 0 false 0 (by simp)

/-- S_ADD on a clean slot: nothing is absorbed yet, so a new context has absorbed TOTAL bytes (R1206). -/
theorem slotOk_slotAdd {sl : Slot} (h : SlotOk sl) (hd : sl.dirty = false) {a : Alg}
    (ha : a = .aich → sl.hasSize = true) : SlotOk (slotAdd sl a) := by
  obtain ⟨hlen, hctx, hclean, hsize, haich⟩ := (slotOk_iff sl).1 h
  have htotal : sl.total = 0 := hclean hd
  refine (slotOk_iff _).2 ⟨by simpa [slotAdd] using hlen, fun b => ?_, hclean, hsize, fun he => ?_⟩
  · rw [slotCtx_slotAdd sl a b hlen, slotEn_slotAdd]
    by_cases hb : b = a
    · subst hb
      have hinit : CtxOk b sl.size sl.total.toNat (initCtx b sl.size) := by rw [htotal]; exact ctxOk_init b sl.size
      refine ⟨by simp, fun c hc => ?_⟩
      cases (by simpa using hc : initCtx b sl.size = c)
      exact hinit
    · simpa [hb, slotAdd] using hctx b
  · rw [slotEn_slotAdd, Bool.or_eq_true, decide_eq_true_eq] at he
    have hhas : sl.hasSize = true := he.elim (fun h => (haich h).1) fun h => ha h.symm
    have hle : sl.total.toNat ≤ sl.size.toNat := by simp [htotal]
    exact ⟨hhas, hle⟩

/-- S_REMOVE takes one context and its EN bit away (R1208). -/
theorem slotOk_slotRemove {sl : Slot} (h : SlotOk sl) (a : Alg) : SlotOk (slotRemove sl a) := by
  obtain ⟨hlen, hctx, hclean, hsize, haich⟩ := (slotOk_iff sl).1 h
  refine (slotOk_iff _).2 ⟨by simpa [slotRemove] using hlen, fun b => ?_, hclean, hsize, fun he => haich ?_⟩
  · rw [slotCtx_slotRemove, slotEn_slotRemove]
    by_cases hb : b = a
    · simp [hb]
    · simpa [hb, slotRemove] using hctx b
  · rw [slotEn_slotRemove, Bool.and_eq_true] at he
    exact he.1

/-- S_UPDATE adds the message's length to TOTAL and to what every context has absorbed, when TOTAL does not overflow and AICH's size is
not passed (R1210). -/
theorem slotOk_slotUpdate {sl : Slot} (h : SlotOk sl) {m : Bytes} (hn : sl.total.toNat + m.length < 2 ^ 64)
    (ha : slotEn sl .aich = true → sl.total.toNat + m.length ≤ sl.size.toNat) : SlotOk (slotUpdate sl m) := by
  obtain ⟨-, hctx, -, hsize, haich⟩ := (slotOk_iff sl).1 h
  have htotal : (slotUpdate sl m).total.toNat = sl.total.toNat + m.length := by
    simp only [slotUpdate, BitVec.toNat_add, BitVec.toNat_ofNat]; omega
  refine (slotOk_iff _).2 ⟨by simp [slotUpdate, allAlgs, Config.nalg], fun a => ?_, by simp [slotUpdate], hsize,
    fun he => ⟨(haich he).1, htotal ▸ ha he⟩⟩
  obtain ⟨hsome, hok⟩ := hctx a
  rw [slotCtx_slotUpdate, slotEn_slotUpdate, htotal]
  cases he : slotEn sl a
  · rw [he] at hsome
    have hnone : slotCtx sl a = none := by simpa using hsome
    simp [hnone]
  · refine ⟨by simpa [he] using hsome, fun c hc => ?_⟩
    obtain ⟨c₀, hc₀, rfl⟩ : ∃ c₀, slotCtx sl a = some c₀ ∧ absorbCtx a c₀ m = c := by simpa using hc
    exact ctxOk_absorb (hok c₀ hc₀) m hn

/-- FINAL is no part of what a slot keeps of its contexts (R1222). -/
theorem slotOk_final {sl : Slot} (h : SlotOk sl) : SlotOk { sl with final := true } := h

end Sys2Proof.Machine
end

section
/-! SUPPORT. What keeps the invariant: the shared operations of the commands, every command, and every event of the host. -/

namespace Sys2Proof.Machine

open Sys2Proof.Safety

/-! ## The shared operations -/

/-- A state after hardware reset meets the invariant, for admitted parameters (R1500, R1503). -/
theorem inv_resetWith {p : Config.Params} (hp : p.wf) : Inv (resetWith p) := by
  refine ⟨hp, ⟨rfl, rfl, fun c hc => nomatch hc⟩, ⟨rfl, Nat.zero_le _⟩, List.length_replicate, fun sl hsl => ?_⟩
  rw [List.eq_of_mem_replicate hsl]
  exact slotOk_emptySlot

/-- A completion lists exactly its output, when that fits OBUF (R110, R115). -/
theorem inv_complete {s : State} (h : Inv s) (c : Code) (r : Results) {out : Bytes} (ho : out.length ≤ s.params.obufSize) :
    Inv (s.complete c r out) := by
  obtain ⟨hp, ⟨hibuf, -, hin⟩, -, hslots⟩ := h
  have holen : (s.complete c r out).olen.toNat = out.length := by
    obtain ⟨-, -, -, -, -, hmax⟩ := hp
    simp only [State.complete_olen, BitVec.toNat_ofNat]; omega
  refine ⟨hp, ⟨hibuf, wf_memOf 0 out, hin⟩, ⟨?_, holen ▸ ho⟩, hslots⟩
  rw [holen, State.complete_obuf, map_fst_memOf, List.range_eq_range']

/-- A completion without output. -/
theorem inv_complete_nil {s : State} (h : Inv s) (c : Code) (r : Results) : Inv (s.complete c r []) :=
  inv_complete h c r (Nat.zero_le _)

theorem inv_found {s : State} (h : Inv s) (o : Option Nat) : Inv (s.found o) := by
  cases o with
  | none => exact inv_complete_nil h _ _
  | some n => exact inv_complete_nil h _ _

/-- An output of at most 64 bytes fits every OBUF (R9). -/
theorem inv_output {s : State} (h : Inv s) {out : Bytes} (ho : out.length ≤ 64) : Inv (s.output out) := by
  obtain ⟨-, -, hi, -, hsize, -⟩ := h.1
  exact inv_complete h _ _ (by omega)

theorem inv_setSlot {s : State} (h : Inv s) (sid : Nat) {sl : Slot} (hsl : SlotOk sl) : Inv (s.setSlot sid sl) := by
  obtain ⟨hp, hbuf, hout, hlen, hslots⟩ := h
  refine ⟨hp, hbuf, hout, List.length_set.trans hlen, fun x hx => ?_⟩
  rcases List.mem_or_eq_of_mem_set hx with hx | rfl
  · exact hslots x hx
  · exact hsl

/-- Every slot number names a slot as the commands keep it; one beyond the list stands for the empty slot. -/
theorem slotOk_slot {s : State} (h : Inv s) (sid : Nat) : SlotOk (s.slot sid) := by
  obtain ⟨-, -, -, -, hslots⟩ := h
  rw [State.slot, List.getD_eq_getElem?_getD]
  cases hget : s.slots[sid]? with
  | none => exact slotOk_emptySlot
  | some sl => exact hslots sl (List.mem_of_getElem? hget)

/-- An admitted operand is no longer than IBUF (R303). -/
theorem length_operandBytes_le {s : State} {off len : W32} (h : operandOk s off len = true) (draw : Nat) :
    (operandBytes s draw off len).length ≤ s.params.ibufSize := by
  rw [operandOk_eq, decide_eq_true_eq] at h
  rw [length_operandBytes]; omega

/-! ## The commands -/

/-- The next state, where there is one, meets the invariant. -/
def NextInv (o : Host.Outcome State Fault Refusal) : Prop := ∀ t, o = .next t → Inv t

theorem nextInv_next {t : State} (h : Inv t) : NextInv (.next t) := fun _ e => Host.Outcome.next.inj e ▸ h

theorem nextInv_raised {s : State} (h : Inv s) (c : Code) (info : Results) : NextInv (raised s c info) :=
  nextInv_next (inv_complete_nil h c info)

/-- A check of a command: either it ends the command with a code, or the command goes on knowing that it passed (R1410). -/
theorem nextInv_check {s : State} (h : Inv s) {p : Prop} [Decidable p] {c : Code} {info : Results}
    {o : Host.Outcome State Fault Refusal} (ho : ¬p → NextInv o) : NextInv (if p then raised s c info else o) := by
  by_cases hp : p
  · rw [if_pos hp]; exact nextInv_raised h c info
  · rw [if_neg hp]; exact ho hp

/-- A case in which a command completes at once, with no output and nothing changed (R1206, R1208). -/
theorem nextInv_shortcut {s : State} (h : Inv s) {p : Prop} [Decidable p] {c : Code}
    {o : Host.Outcome State Fault Refusal} (ho : ¬p → NextInv o) : NextInv (if p then .next (s.complete c) else o) :=
  nextInv_check h ho

theorem execSNew_nextInv {s : State} (h : Inv s) (sid : Nat) : NextInv (execSNew sid s) := by
  refine nextInv_check h fun _ => nextInv_check h fun _ => nextInv_check h fun hsize => ?_
  have hslot : SlotOk (newSlot (argMask s) (sizeValid s) (argSize s)) :=
    slotOk_newSlot _ _ _ fun haich => by simpa [haich] using hsize
  exact nextInv_next (inv_complete_nil (inv_setSlot h sid hslot) _ _)

theorem execSAdd_nextInv {s : State} (h : Inv s) (alg sid : Nat) : NextInv (execSAdd alg sid s) := by
  refine nextInv_check h fun _ => ?_
  cases algOf alg with
  | none => exact nextInv_raised h _ _
  | some a =>
    refine nextInv_check h fun _ => nextInv_shortcut h fun hdirty => nextInv_shortcut h fun _ =>
      nextInv_check h fun hsize => ?_
    have hslot : SlotOk (slotAdd (s.slot sid) a) :=
      slotOk_slotAdd (slotOk_slot h sid) (by simpa using hdirty) fun haich => by simpa [haich] using hsize
    exact nextInv_next (inv_complete_nil (inv_setSlot h sid hslot) _ _)

theorem execSRemove_nextInv {s : State} (h : Inv s) (alg sid : Nat) : NextInv (execSRemove alg sid s) := by
  refine nextInv_check h fun _ => ?_
  cases algOf alg with
  | none => exact nextInv_raised h _ _
  | some a =>
    refine nextInv_check h fun _ => nextInv_shortcut h fun _ => ?_
    exact nextInv_next (inv_complete_nil (inv_setSlot h sid (slotOk_slotRemove (slotOk_slot h sid) a)) _ _)

theorem execSUpdate_nextInv {s : State} (h : Inv s) (sid : Nat) : NextInv (execSUpdate sid s) := by
  refine nextInv_check h fun _ => nextInv_check h fun _ => nextInv_check h fun _ => nextInv_check h fun hover =>
    nextInv_check h fun haich => ?_
  have hslot : SlotOk (slotUpdate (s.slot sid) (operandBytes s s.draws s.arg1 s.arg0)) := by
    refine slotOk_slotUpdate (slotOk_slot h sid) ?_ fun he => ?_
    · rw [length_operandBytes]; omega
    · rw [length_operandBytes]; simpa [he] using haich
  exact nextInv_next (inv_complete_nil (inv_setSlot h sid hslot) _ _)

/-- The digest of an enabled algorithm fits every OBUF. -/
theorem length_slotDigest_le {s : State} (h : Inv s) (sid : Nat) {a : Alg} (he : ¬(!slotEn (s.slot sid) a) = true) :
    (slotDigest (s.slot sid) a).length ≤ 64 :=
  Nat.le_trans (Nat.le_of_eq (length_slotDigest (slotOk_slot h sid) (by simpa using he))) (digestLen_le a)

theorem execSResult_nextInv {s : State} (h : Inv s) (alg sid : Nat) : NextInv (execSResult alg sid s) := by
  refine nextInv_check h fun _ => ?_
  cases algOf alg with
  | none => exact nextInv_raised h _ _
  | some a =>
    refine nextInv_check h fun hen => nextInv_check h fun _ => ?_
    exact nextInv_next (inv_output h (length_slotDigest_le h sid hen))

theorem execSQuery_nextInv {s : State} (h : Inv s) (sid : Nat) : NextInv (execSQuery sid s) :=
  nextInv_check h fun _ => nextInv_next (inv_complete_nil h _ _)

theorem execDInit_nextInv {s : State} (h : Inv s) (alg sid : Nat) : NextInv (execDInit alg sid s) := by
  refine nextInv_check h fun _ => ?_
  cases algOf alg with
  | none => exact nextInv_raised h _ _
  | some a =>
    refine nextInv_check h fun _ => nextInv_check h fun hsize => ?_
    have hslot : SlotOk (newSlot (oneAlg a) (sizeValid s) (argSize s)) := by
      refine slotOk_newSlot _ _ _ fun hbit => ?_
      have ha : Alg.aich = a := of_decide_eq_true ((getLsbD_oneAlg a .aich).symm.trans hbit)
      simpa [← ha] using hsize
    exact nextInv_next (inv_complete_nil (inv_setSlot h sid hslot) _ _)

theorem execDFinal_nextInv {s : State} (h : Inv s) (alg sid : Nat) : NextInv (execDFinal alg sid s) := by
  refine nextInv_check h fun _ => ?_
  cases algOf alg with
  | none => exact nextInv_raised h _ _
  | some a =>
    refine nextInv_check h fun hen => nextInv_check h fun _ => ?_
    exact nextInv_next (inv_output (inv_setSlot h sid (slotOk_final (slotOk_slot h sid))) (length_slotDigest_le h sid hen))

/-- SCR is no part of the invariant (R141). -/
theorem inv_scr {s : State} (h : Inv s) (x : Option Ctx) : Inv { s with scr := x } := h

theorem execDHash_nextInv {s : State} (h : Inv s) (alg : Nat) : NextInv (execDHash alg s) := by
  unfold execDHash
  cases algOf alg with
  | none => exact nextInv_raised h _ _
  | some a =>
    refine nextInv_check h fun _ => nextInv_next (inv_output (inv_scr h _) ?_)
    have hm : (operandBytes s s.draws s.arg1 s.arg0).length < 2 ^ 64 := by
      rw [length_operandBytes]; have := s.arg0.isLt; omega
    exact Nat.le_trans (Nat.le_of_eq (length_digest a _ hm)) (digestLen_le a)

theorem execEncode_nextInv {s : State} (h : Inv s) (enc : Nat) : NextInv (execEncode enc s) := by
  unfold execEncode
  cases encOf enc with
  | none => exact nextInv_raised h _ _
  | some e =>
    refine nextInv_check h fun _ => nextInv_check h fun hfits => ?_
    exact nextInv_next (inv_complete h _ _ (Nat.le_of_not_lt hfits))

theorem execDecode_nextInv {s : State} (h : Inv s) (enc : Nat) : NextInv (execDecode enc s) := by
  unfold execDecode
  cases encOf enc with
  | none => exact nextInv_raised h _ _
  | some e =>
    refine nextInv_check h fun hoperand => ?_
    cases hdec : decodeText e (operandBytes s s.draws s.arg1 s.arg0) with
    | parse pos => exact nextInv_raised h _ _
    | ok out used =>
      have hout : out.length ≤ s.params.ibufSize :=
        Nat.le_trans (length_decodeText_le hdec) (length_operandBytes_le (by simpa using hoperand) _)
      obtain ⟨-, -, -, -, hsize, -⟩ := h.1
      exact nextInv_next (inv_complete h _ _ (by omega))

theorem execDetectEnc_nextInv {s : State} (h : Inv s) : NextInv (execDetectEnc s) :=
  nextInv_check h fun _ => nextInv_next (inv_found h _)

theorem execRegSize_nextInv {s : State} (h : Inv s) (alg : Nat) : NextInv (execRegSize alg s) := by
  unfold execRegSize
  cases algOf alg with
  | none => exact nextInv_raised h _ _
  | some a => exact nextInv_next (inv_complete_nil h _ _)

theorem execRegName_nextInv {s : State} (h : Inv s) (alg : Nat) : NextInv (execRegName alg s) := by
  unfold execRegName
  cases algOf alg with
  | none => exact nextInv_raised h _ _
  | some a => exact nextInv_next (inv_output h (Nat.le_trans (length_algName_le a) (by decide)))

theorem execRegFromName_nextInv {s : State} (h : Inv s) : NextInv (execRegFromName s) :=
  nextInv_check h fun _ => nextInv_next (inv_found h _)

theorem execDetectAlg_nextInv {s : State} (h : Inv s) : NextInv (execDetectAlg s) :=
  nextInv_check h fun _ => nextInv_next (inv_found (inv_scr h _) _)

/-- Every command keeps the invariant. -/
theorem exec_nextInv {s : State} (h : Inv s) (i : Instr) : NextInv (exec i s) := by
  cases i with
  | nop => exact nextInv_next (inv_complete_nil h _ _)
  | sNew sid => exact execSNew_nextInv h sid
  | sAdd alg sid => exact execSAdd_nextInv h alg sid
  | sRemove alg sid => exact execSRemove_nextInv h alg sid
  | sUpdate sid => exact execSUpdate_nextInv h sid
  | sResult alg sid => exact execSResult_nextInv h alg sid
  | sQuery sid => exact execSQuery_nextInv h sid
  | dInit alg sid => exact execDInit_nextInv h alg sid
  | dFinal alg sid => exact execDFinal_nextInv h alg sid
  | dHash alg => exact execDHash_nextInv h alg
  | encode enc => exact execEncode_nextInv h enc
  | decode enc => exact execDecode_nextInv h enc
  | detectEnc => exact execDetectEnc_nextInv h
  | regSize alg => exact execRegSize_nextInv h alg
  | regName alg => exact execRegName_nextInv h alg
  | regFromName => exact execRegFromName_nextInv h
  | detectAlg => exact execDetectAlg_nextInv h

/-- The running command keeps the invariant, whether its word decodes or not (R312, R313). -/
theorem runCommand_nextInv {s : State} (h : Inv s) : NextInv (runCommand s) := by
  unfold runCommand
  cases Sys2Proof.decode s.pcmd with
  | ok i => exact exec_nextInv h i
  | error e => exact nextInv_raised h _ _

/-! ## The host -/

theorem inv_hardReset {s : State} (h : Inv s) : Inv s.hardReset := inv_resetWith h.1

/-- Soft reset keeps IBUF, which the invariant speaks of (R1502). -/
theorem inv_softReset {s : State} (h : Inv s) : Inv s.softReset := by
  obtain ⟨hp, ⟨-, hobuf, -⟩, hout, hslots⟩ := inv_hardReset h
  obtain ⟨-, ⟨hibuf, -, hin⟩, -⟩ := h
  exact ⟨hp, ⟨hibuf, hobuf, hin⟩, hout, hslots⟩

theorem inv_hostRead {s : State} (h : Inv s) (off : Nat) (w : Width) : Inv (hostRead s off w) := by
  unfold hostRead
  split
  · exact h
  · exact h

theorem inv_unlessBusy {s t : State} (h : Inv s) (ht : Inv t) : Inv (unlessBusy s t) := by
  unfold unlessBusy
  split
  · exact h
  · exact ht

/-- A register write touches the buffers and the slots by a soft reset only. -/
theorem inv_writeReg {s : State} (h : Inv s) (i : Nat) (v : W32) : Inv (writeReg s i v) := by
  unfold writeReg
  split
  next => exact inv_unlessBusy h (t := s.accept v) h
  next => exact h
  next => exact inv_unlessBusy h (t := { s with arg0 := v }) h
  next => exact inv_unlessBusy h (t := { s with arg1 := v }) h
  next => exact inv_unlessBusy h (t := { s with arg2 := v }) h
  next => exact inv_unlessBusy h (t := { s with arg3 := v }) h
  next => exact h
  next =>
    split
    · exact inv_softReset h
    · exact h
  next => exact h

/-- An access admitted to IBUF lies inside it (R205). -/
theorem targetOf_ibuf_lt {p : Config.Params} {off k : Nat} {w : Width} (h : targetOf p off w = .ibuf k) :
    k + accessBytes w ≤ p.ibufSize := by
  unfold targetOf at h
  by_cases halign : off % accessBytes w ≠ 0
  · rw [if_pos halign] at h; cases h
  rw [if_neg halign] at h
  by_cases hreg : off < 0x40
  · rw [if_pos hreg] at h; split at h <;> cases h
  rw [if_neg hreg] at h
  by_cases hibuf : ibufBase ≤ off ∧ off + accessBytes w ≤ ibufBase + p.ibufSize
  · rw [if_pos hibuf] at h
    have hk : off - ibufBase = k := Target.ibuf.inj h
    omega
  · rw [if_neg hibuf] at h; split at h <;> cases h

/-- A write to IBUF lists the written bytes, which lie inside it (R204, R205). -/
theorem inv_ibufStore {s : State} (h : Inv s) {k : Nat} {bs : Bytes} (hk : k + bs.length ≤ s.params.ibufSize) :
    Inv { s with ibuf := memStore s.ibuf k bs } := by
  obtain ⟨hp, ⟨hibuf, hobuf, hin⟩, hout, hslots⟩ := h
  refine ⟨hp, ⟨wf_memStore bs hibuf, hobuf, fun c hc => ?_⟩, hout, hslots⟩
  rcases mem_memStore bs hc with ⟨-, hlt⟩ | hold
  · exact Nat.lt_of_lt_of_le hlt hk
  · exact hin c hold

theorem inv_hostWrite {s : State} (h : Inv s) (off : Nat) (w : Width) (v : W32) : Inv (hostWrite s off w v) := by
  unfold hostWrite
  cases htarget : targetOf s.params off w with
  | reg i => exact inv_writeReg h i v
  | ibuf k =>
    have hk := targetOf_ibuf_lt htarget
    exact inv_unlessBusy h (inv_ibufStore h (by rwa [length_toLeN]))
  | obuf k => exact h
  | none => exact h

/-- Every event of the host keeps the invariant. -/
theorem inv_hostEvent {s : State} (h : Inv s) (e : HostEvent) : Inv (hostEvent s e) := by
  cases e with
  | idle => exact h
  | read off w => exact inv_hostRead h _ w
  | write off w v => exact inv_hostWrite h _ w v
  | waitIdle => exact inv_hostRead h _ .w32
  | hardReset => exact inv_hardReset h

theorem inv_hostStep {s : State} (h : Inv s) : Inv (hostStep s) := by
  unfold hostStep
  cases s.hostQueue with
  | nil => exact h
  | cons e rest => exact inv_hostEvent (s := { s with hostQueue := eventsAfter s.status.busy e rest }) h e

theorem inv_tick {s : State} (h : Inv s) : Inv (tick s) := by
  unfold tick
  split
  · exact h
  · exact h

/-- A step keeps the invariant, whether the core completes its command or the host acts. -/
theorem step_nextInv {s : State} (h : Inv s) : NextInv (step s) := by
  rw [step_eq]
  split
  · exact runCommand_nextInv h
  · exact nextInv_next (inv_hostStep (inv_tick h))

end Sys2Proof.Machine

namespace Sys2Proof.Proofs

open Sys2Proof.Machine

/-- Settles O59: the parts of the invariant are kept by the shared operations, and through them by every command and every event of the
host. -/
theorem invariantKeptByStep : Obligations.InvariantKeptByStep := fun _ t h hstep => step_nextInv h t hstep

/-- Settles O60: the buffers are empty, OLEN is 0 and every slot is the empty slot. -/
theorem invariantHoldsAtReset : Obligations.InvariantHoldsAtReset :=
  ⟨fun _ hp => inv_resetWith hp, inv_resetWith (p := Config.defaultParams) (by decide)⟩

end Sys2Proof.Proofs
end

section
/-! SUPPORT. The registers as the host accesses them: the address of each, what an idle machine stores there, and its words as numbers
(R101 to R112). -/

namespace Sys2Proof.Machine

open Sys2Proof.Safety

/-! ## The address of a register (R101, R203) -/

/-- An access goes to a register exactly when it is 32 bits wide and at the register's own offset. -/
theorem targetOf_eq_reg {p : Config.Params} {off i : Nat} {w : Width} :
    targetOf p off w = .reg i ↔ w = .w32 ∧ off = 4 * i ∧ i < 16 := by
  constructor
  · intro h
    unfold targetOf at h
    by_cases halign : off % accessBytes w ≠ 0
    · rw [if_pos halign] at h; cases h
    rw [if_neg halign] at h
    by_cases hreg : off < 0x40
    · rw [if_pos hreg] at h
      by_cases hw : w = .w32
      · rw [if_pos hw] at h
        subst hw
        have hi : off / 4 = i := Target.reg.inj h
        have hmod : off % 4 = 0 := Decidable.not_not.1 halign
        exact ⟨rfl, by omega, by omega⟩
      · rw [if_neg hw] at h; cases h
    rw [if_neg hreg] at h
    by_cases hibuf : ibufBase ≤ off ∧ off + accessBytes w ≤ ibufBase + p.ibufSize
    · rw [if_pos hibuf] at h; cases h
    · rw [if_neg hibuf] at h; split at h <;> cases h
  · rintro ⟨rfl, rfl, hi⟩
    have halign : ¬(4 * i % accessBytes .w32 ≠ 0) := by simp [accessBytes]
    rw [targetOf, if_neg halign, if_pos (by omega), if_pos rfl, Nat.mul_div_cancel_left i (by decide)]

/-- The window has room for the offset of every register (R200). -/
theorem toNat_regOffset {i : Nat} (hi : i < 16) : (BitVec.ofNat 14 (4 * i)).toNat = 4 * i := by
  rw [BitVec.toNat_ofNat]; omega

theorem hostRead_reg (s : State) {i : Nat} (hi : i < 16) :
    hostRead s (4 * i) .w32 = { s with rdata := regValue s s.draws i, draws := s.draws + 1 } := by
  have htarget : targetOf s.params (4 * i) .w32 = .reg i := targetOf_eq_reg.2 ⟨rfl, rfl, hi⟩
  simp [hostRead, readValue, htarget]

theorem hostEvent_write_reg (s : State) {off : BitVec 14} (v : W32) {i : Nat} (hoff : off.toNat = 4 * i) (hi : i < 16) :
    hostEvent s (.write off .w32 v) = writeReg s i v := by
  have htarget : targetOf s.params off.toNat .w32 = .reg i := targetOf_eq_reg.2 ⟨rfl, hoff, hi⟩
  simp [hostEvent, hostWrite, htarget]

theorem readBack_reg (s : State) {i : Nat} (hi : i < 16) : readBack s (4 * i) .w32 = regValue s s.draws i := by
  rw [readBack, hostEvent, toNat_regOffset hi, hostRead_reg s hi]

/-- WAIT reads STATUS (R316). -/
theorem hostEvent_waitIdle (s : State) :
    hostEvent s .waitIdle = { s with rdata := statusRead s s.draws, draws := s.draws + 1 } :=
  hostRead_reg s (i := 4) (by decide)

/-! ## The registers of an idle machine (R1510, R1511) -/

theorem unlessBusy_idle {s : State} (h : s.status.busy = false) (t : State) : unlessBusy s t = t := by
  simp [unlessBusy, h]

theorem resultValue_idle {s : State} (h : s.status.busy = false) (draw : Nat) (v : W32) : resultValue s draw v = v := by
  simp [resultValue, h]

theorem statusRead_idle {s : State} (h : s.status.busy = false) (draw : Nat) :
    statusRead s draw = statusWord s.status := by
  simp [statusRead, h]

/-- ID, CAPS, BUFSZ, RES0 to RES3 and OLEN ignore writes (R101). -/
theorem writeReg_readOnly (s : State) (v : W32) {i : Nat} (hi : i ∈ [0, 1, 2, 9, 10, 11, 12, 13]) : writeReg s i v = s := by
  simp only [List.mem_cons, List.not_mem_nil, or_false] at hi
  rcases hi with rfl | rfl | rfl | rfl | rfl | rfl | rfl | rfl <;> rfl

/-! ## The words of the registers as numbers -/

/-- Joining two words is adding the upper one, shifted. -/
theorem toNat_append_eq_add {m n : Nat} (x : BitVec m) (y : BitVec n) : (x ++ y).toNat = x.toNat * 2 ^ n + y.toNat := by
  rw [BitVec.toNat_append, ← Nat.shiftLeft_add_eq_or_of_lt y.isLt, Nat.shiftLeft_eq]

/-- CAPS: NSESS, NALG and NENC, a byte each (R103). -/
theorem toNat_capsWord {p : Config.Params} (h : p.nsess < 2 ^ 8) :
    (capsWord p).toNat = p.nsess + 17 * 2 ^ 8 + 6 * 2 ^ 16 := by
  simp only [capsWord, toNat_append_eq_add, BitVec.toNat_ofNat, Config.nenc, Config.nalg]
  omega

/-- BUFSZ: the two buffer sizes, 16 bits each (R104). -/
theorem toNat_bufszWord {p : Config.Params} (hi : p.ibufSize < 2 ^ 16) (ho : p.obufSize < 2 ^ 16) :
    (bufszWord p).toNat = p.ibufSize + p.obufSize * 2 ^ 16 := by
  simp only [bufszWord, toNat_append_eq_add, BitVec.toNat_ofNat]
  omega

/-- STATUS: the five flags from bit 0 on, and the code in bits 15:8 (R106). -/
theorem toNat_statusWordWith (st : Status) (code : Byte) :
    (statusWordWith st code).toNat = st.busy.toNat + st.done.toNat * 2 + st.err.toNat * 4 + st.ovr.toNat * 8 +
      st.aerr.toNat * 16 + code.toNat * 2 ^ 8 := by
  simp only [statusWordWith, toNat_append_eq_add, BitVec.toNat_ofBool, BitVec.toNat_ofNat]
  omega

/-- IRQEN: DONE_IE in bit 0 and ERR_IE in bit 1 (R111). -/
theorem toNat_irqenWord (s : State) :
    ((BitVec.ofBool s.errIe ++ BitVec.ofBool s.doneIe).zeroExtend 32).toNat = s.doneIe.toNat + 2 * s.errIe.toNat := by
  have hdone := s.doneIe.toNat_le
  have herr := s.errIe.toNat_le
  rw [BitVec.toNat_setWidth, toNat_append_eq_add, BitVec.toNat_ofBool, BitVec.toNat_ofBool]
  omega

end Sys2Proof.Machine

namespace Sys2Proof.Proofs

open Sys2Proof.Machine Sys2Proof.Safety

/-- Settles O50: each read is the value of its register, and the words of CAPS, BUFSZ, STATUS, OLEN and IRQEN are the numbers their
fields give. -/
theorem registersRead : Obligations.RegistersRead := by
  intro s hp hidle
  obtain ⟨-, hnsess, -, hibuf, -, hobuf⟩ := hp
  have hread : ∀ i < 16, readBack s (4 * i) .w32 = regValue s s.draws i := fun i hi => readBack_reg s hi
  have hres : ∀ v, resultValue s s.draws v = v := resultValue_idle hidle s.draws
  have hstatus : (statusRead s s.draws).toNat = s.status.done.toNat * 2 + s.status.err.toNat * 4 +
      s.status.ovr.toNat * 8 + s.status.aerr.toNat * 16 + (codeByte s.status.code).toNat * 2 ^ 8 := by
    rw [statusRead_idle hidle, statusWord, toNat_statusWordWith, hidle]; simp
  have holen : (regValue s s.draws 13).toNat = s.olen.toNat := by
    simp only [regValue, hidle, Bool.false_eq_true, if_false]
    exact BitVec.toNat_setWidth_of_le (by decide)
  refine ⟨hread 0 (by decide), ?_, ?_, hread 3 (by decide), ?_, hread 5 (by decide), hread 6 (by decide),
    hread 7 (by decide), hread 8 (by decide), ?_, ?_, ?_, ?_, ?_, ?_, hread 15 (by decide)⟩
  · exact (congrArg _ (hread 1 (by decide))).trans (toNat_capsWord (by omega))
  · exact (congrArg _ (hread 2 (by decide))).trans (toNat_bufszWord (by omega) (by omega))
  · exact (congrArg _ (hread 4 (by decide))).trans hstatus
  · exact (hread 9 (by decide)).trans (hres _)
  · exact (hread 10 (by decide)).trans (hres _)
  · exact (hread 11 (by decide)).trans (hres _)
  · exact (hread 12 (by decide)).trans (hres _)
  · exact (congrArg _ (hread 13 (by decide))).trans holen
  · exact (congrArg _ (hread 14 (by decide))).trans (toNat_irqenWord s)

/-- Settles O51: each write is the register's own, and nothing holds it back while no command runs. -/
theorem registersWrite : Obligations.RegistersWrite := by
  intro s v hidle
  have hwrite : ∀ {off : BitVec 14} (i : Nat), off.toNat = 4 * i → i < 16 →
      hostEvent s (.write off .w32 v) = writeReg s i v := fun _ hoff hi => hostEvent_write_reg s v hoff hi
  refine ⟨⟨Config.latency s.draws, s.draws + 1, ?_⟩, ?_, ?_, ?_, ?_, hwrite 4 rfl (by decide), hwrite 14 rfl (by decide),
    fun off hoff => ?_⟩
  · exact (hwrite 3 rfl (by decide)).trans (unlessBusy_idle hidle _)
  · exact (hwrite 5 rfl (by decide)).trans (unlessBusy_idle hidle _)
  · exact (hwrite 6 rfl (by decide)).trans (unlessBusy_idle hidle _)
  · exact (hwrite 7 rfl (by decide)).trans (unlessBusy_idle hidle _)
  · exact (hwrite 8 rfl (by decide)).trans (unlessBusy_idle hidle _)
  · have hmem : off ∈ [0, 1, 2, 9, 10, 11, 12, 13].map fun i => BitVec.ofNat 14 (4 * i) := hoff
    obtain ⟨i, hi, rfl⟩ := List.mem_map.1 hmem
    have hlt : i < 16 := by
      simp only [List.mem_cons, List.not_mem_nil, or_false] at hi
      omega
    exact (hwrite i (toNat_regOffset hlt) hlt).trans (writeReg_readOnly s v hi)

end Sys2Proof.Proofs
end

section
/-! SUPPORT. What the decoder's answer says of a command, what a completion leaves and keeps, and the two kinds of step: the core's and
the host's (R211). -/

namespace Sys2Proof

/-- A command of fields as wide as those of format C is well formed (R301). -/
theorem wf_instrOf {sel sid : Nat} (hsel : sel < 256) (hsid : sid < 16) (op : Op) : (instrOf sel sid op).wf = true := by
  cases op <;> simp [instrOf, Instr.wf, selFits, sidFits, hsel, hsid]

/-- The decoder answers well-formed commands only. -/
theorem wf_of_decode {w : W32} {i : Instr} (h : decode w = .ok i) : i.wf = true := by
  have hsel : selField w < 256 := by rw [selField_eq]; omega
  have hsid : sidField w < 16 := by rw [sidField_eq]; omega
  rw [decode_eq] at h
  cases hop : opOfNat (opField w) with
  | none => simp [hop] at h
  | some op =>
    simp only [hop] at h
    split at h
    · exact Except.ok.inj h ▸ wf_instrOf hsel hsid op
    · cases h

/-- A command is made again of its row and its numbers (R310). -/
theorem instrOf_selOf_sidOf (i : Instr) : instrOf (selOf i) (sidOf i) (opOf i) = i := by cases i <;> rfl

/-- A command whose row has no SEL has the number 0 there (R310). -/
theorem selOf_eq_zero {i : Instr} (h : opUsesSel (opOf i) = false) : selOf i = 0 := by
  cases i <;> simp_all [opOf, opUsesSel, selOf]

theorem sidOf_eq_zero {i : Instr} (h : opUsesSid (opOf i) = false) : sidOf i = 0 := by
  cases i <;> simp_all [opOf, opUsesSid, sidOf]

/-- The decoder reads a well-formed command back from its word (R301, R310, R317). -/
theorem decode_encode {i : Instr} (h : i.wf = true) : decode (encode i) = .ok i := by
  obtain ⟨hop, hsel, hsid, hrsv⟩ := Laws.encodeFields_of_wf i h
  have hok : fieldsOk (opOf i) (encode i) = true := by
    have hselOk : opUsesSel (opOf i) = true ∨ selOf i = 0 := (Bool.eq_false_or_eq_true _).imp_right selOf_eq_zero
    have hsidOk : opUsesSid (opOf i) = true ∨ sidOf i = 0 := (Bool.eq_false_or_eq_true _).imp_right sidOf_eq_zero
    simp [fieldsOk, hrsv, hsel, hsid, hselOk, hsidOk]
  simp [decode_eq, hop, opOfNat_opNat, hok, hsel, hsid, instrOf_selOf_sidOf]

end Sys2Proof

namespace Sys2Proof.Machine

open Sys2Proof.Safety

/-- A completion leaves what R1402 says, for an output that OLEN can count. -/
theorem completed_complete (s : State) (c : Code) (r : Results) {out : Bytes} (h : out.length < 2 ^ 16) :
    Completed s (s.complete c r out) c r out :=
  ⟨rfl, rfl, rfl, rfl, rfl, Nat.mod_eq_of_lt h, fun draw k => obufByte_complete s c r out draw k⟩

theorem kept_complete (s : State) (c : Code) (r : Results) (out : Bytes) : Kept s (s.complete c r out) :=
  ⟨rfl, rfl, rfl, rfl, rfl, rfl, rfl, rfl, fun _ _ => rfl, rfl, rfl, rfl⟩

theorem completesKeeping_complete (s : State) (c : Code) (r : Results) {out : Bytes} (h : out.length < 2 ^ 16) :
    CompletesKeeping (.next (s.complete c r out)) s c r out :=
  ⟨_, rfl, completed_complete s c r h, kept_complete s c r out, rfl, rfl⟩

/-! ## The core's step -/

/-- The step of a command whose time has elapsed is the core's (R211). -/
theorem step_command {s : State} (hbusy : s.status.busy = true) (hwait : s.wait = 0) : step s = runCommand s := by
  rw [step_eq, if_pos ⟨hbusy, hwait⟩]

theorem runCommand_of_decode_ok {s : State} {i : Instr} (h : Sys2Proof.decode s.pcmd = .ok i) :
    runCommand s = exec i s := by
  rw [runCommand, h]

theorem runCommand_of_decode_error {s : State} {e : DecodeError} (h : Sys2Proof.decode s.pcmd = .error e) :
    runCommand s = .next (s.complete (decodeErrorCode e)) := by
  simp only [runCommand, h, raised_eq]

/-- Every command completes: STATUS takes a code, and the host's queue stays as it is. -/
theorem exec_completes (i : Instr) (s : State) :
    ∃ t c, exec i s = .next t ∧ t.status = statusComplete s.status c ∧ t.hostQueue = s.hostQueue := by
  obtain ⟨t, ht, ⟨c, r, out, rfl⟩ | ⟨sl, r, out, rfl⟩ | ⟨x, c, r, out, rfl, -⟩⟩ := exec_shape i s
  · exact ⟨_, c, ht, rfl, rfl⟩
  · exact ⟨_, .ok, ht, rfl, rfl⟩
  · exact ⟨_, c, ht, rfl, rfl⟩

theorem runCommand_completes (s : State) :
    ∃ t c, runCommand s = .next t ∧ t.status = statusComplete s.status c ∧ t.hostQueue = s.hostQueue := by
  cases hdec : Sys2Proof.decode s.pcmd with
  | ok i => rw [runCommand_of_decode_ok hdec]; exact exec_completes i s
  | error e => rw [runCommand_of_decode_error hdec]; exact ⟨_, decodeErrorCode e, rfl, rfl, rfl⟩

/-! ## The host's step -/

@[simp] theorem tick_status (s : State) : (tick s).status = s.status := by
  unfold tick; split <;> rfl

@[simp] theorem tick_hostQueue (s : State) : (tick s).hostQueue = s.hostQueue := by
  unfold tick; split <;> rfl

theorem hostStep_nil {s : State} (hq : s.hostQueue = []) : hostStep s = s := by simp only [hostStep, hq]

theorem hostStep_cons {s : State} {e : HostEvent} {rest : List HostEvent} (hq : s.hostQueue = e :: rest) :
    hostStep s = hostEvent { s with hostQueue := eventsAfter s.status.busy e rest } e := by simp only [hostStep, hq]

/-- The step of the host performs its next event (R211). -/
theorem step_event {s : State} {e : HostEvent} {rest : List HostEvent} (h : ¬(s.status.busy = true ∧ s.wait = 0))
    (hq : s.hostQueue = e :: rest) :
    step s = .next (hostEvent { tick s with hostQueue := eventsAfter s.status.busy e rest } e) := by
  have hbusy : (tick s).status.busy = s.status.busy := congrArg Status.busy (tick_status s)
  rw [step_eq, if_neg h, hostStep_cons ((tick_hostQueue s).trans hq), hbusy]

/-- With no event left the host issues nothing. -/
theorem step_noEvent {s : State} (h : ¬(s.status.busy = true ∧ s.wait = 0)) (hq : s.hostQueue = []) :
    step s = .next (tick s) := by
  rw [step_eq, if_neg h, hostStep_nil ((tick_hostQueue s).trans hq)]

end Sys2Proof.Machine

namespace Sys2Proof.Proofs

open Sys2Proof.Machine

/-- Settles O6: the step is the core's, which follows the decoder's answer. -/
theorem stepRunsCommand : Obligations.StepRunsCommand := by
  intro s hbusy hwait
  have hstep := step_command hbusy hwait
  refine ⟨fun i hi => ⟨wf_of_decode hi, hstep.trans (runCommand_of_decode_ok hi)⟩, fun e he => ?_⟩
  rw [hstep, runCommand_of_decode_error he]
  cases e with
  | badOpcode => exact completesKeeping_complete s .badOpcode {} (by decide)
  | badField => exact completesKeeping_complete s .badField {} (by decide)

end Sys2Proof.Proofs
end

section
/-! SUPPORT. What a step does to STATUS: the sticky flags and CODE (R107, R1402). -/

namespace Sys2Proof.Machine

open Sys2Proof.Safety

/-- No sticky flag falls from `st` to `st'` (R107). -/
structure FlagsKept (st st' : Status) : Prop where
  done : st.done = true → st'.done = true
  err : st.err = true → st'.err = true
  ovr : st.ovr = true → st'.ovr = true
  aerr : st.aerr = true → st'.aerr = true

theorem flagsKept_refl (st : Status) : FlagsKept st st := ⟨id, id, id, id⟩

theorem flagsKept_complete (st : Status) (c : Code) : FlagsKept st (statusComplete st c) :=
  ⟨fun _ => rfl, fun h => by simp [h], id, id⟩

theorem flagsKept_accept (st : Status) : FlagsKept st (statusAccept st) := ⟨id, id, id, id⟩

theorem flagsKept_overrun (st : Status) : FlagsKept st (statusOverrun st) := ⟨id, id, fun _ => rfl, id⟩

theorem flagsKept_accessError (st : Status) : FlagsKept st (statusAccessError st) := ⟨id, id, id, fun _ => rfl⟩

/-! ## A completion overwrites CODE -/

/-- STATUS.CODE := c. -/
def State.withCode (s : State) (c : Code) : State := { s with status := { s.status with code := c } }

/-- A completion overwrites CODE. -/
theorem complete_withCode (s : State) (c c' : Code) (r : Results) (out : Bytes) :
    (s.withCode c).complete c' r out = s.complete c' r out := rfl

/-- No command reads CODE: its checks and its values are those of the state as it stands, and its completion overwrites CODE. -/
theorem exec_withCode (i : Instr) (s : State) (c : Code) : exec i (s.withCode c) = exec i s := by
  cases i <;> rfl

theorem runCommand_withCode (s : State) (c : Code) : runCommand (s.withCode c) = runCommand s := by
  cases hdec : Sys2Proof.decode s.pcmd with
  | ok i => rw [runCommand_of_decode_ok hdec, runCommand_of_decode_ok (s := s.withCode c) hdec, exec_withCode]
  | error e =>
    rw [runCommand_of_decode_error hdec, runCommand_of_decode_error (s := s.withCode c) hdec, complete_withCode]

/-! ## The host -/

/-- What an event of the host does to the flags: it keeps them, or resets the machine, or writes STATUS. -/
def FlagsAfter (e : HostEvent) (st st' : Status) : Prop :=
  FlagsKept st st' ∨ IsReset e ∨ ∃ v, IsRegWrite e 0x010 v ∧ st' = statusWrite st v

theorem flagsKept_hostRead (s : State) (off : Nat) (w : Width) : FlagsKept s.status (hostRead s off w).status := by
  unfold hostRead
  split
  · exact flagsKept_accessError s.status
  · exact flagsKept_refl s.status

theorem flagsKept_unlessBusy {s t : State} (h : FlagsKept s.status t.status) :
    FlagsKept s.status (unlessBusy s t).status := by
  unfold unlessBusy
  split
  · exact flagsKept_overrun s.status
  · exact h

theorem flagsAfter_writeReg (s : State) {off : BitVec 14} {i : Nat} (v : W32) (hoff : off.toNat = 4 * i) :
    FlagsAfter (.write off .w32 v) s.status (writeReg s i v).status := by
  have hkeep : ∀ t : State, t.status = s.status → FlagsKept s.status (unlessBusy s t).status := fun t ht =>
    flagsKept_unlessBusy (ht ▸ flagsKept_refl s.status)
  unfold writeReg
  split
  next => exact .inl (flagsKept_unlessBusy (flagsKept_accept s.status))
  next => exact .inr (.inr ⟨v, ⟨off, rfl, hoff⟩, rfl⟩)
  next => exact .inl (hkeep _ rfl)
  next => exact .inl (hkeep _ rfl)
  next => exact .inl (hkeep _ rfl)
  next => exact .inl (hkeep _ rfl)
  next => exact .inl (flagsKept_refl s.status)
  next =>
    split
    next hbit => exact .inr (.inl (.inr ⟨v, ⟨off, rfl, hoff⟩, hbit⟩))
    next => exact .inl (flagsKept_refl s.status)
  next => exact .inl (flagsKept_refl s.status)

theorem flagsAfter_hostWrite (s : State) (off : BitVec 14) (w : Width) (v : W32) :
    FlagsAfter (.write off w v) s.status (hostWrite s off.toNat w v).status := by
  unfold hostWrite
  cases htarget : targetOf s.params off.toNat w with
  | reg i =>
    obtain ⟨rfl, hoff, -⟩ := targetOf_eq_reg.1 htarget
    exact flagsAfter_writeReg s v hoff
  | ibuf k => exact .inl (flagsKept_unlessBusy (flagsKept_refl s.status))
  | obuf k => exact .inl (flagsKept_accessError s.status)
  | none => exact .inl (flagsKept_accessError s.status)

theorem flagsAfter_hostEvent (s : State) (e : HostEvent) : FlagsAfter e s.status (hostEvent s e).status := by
  cases e with
  | idle => exact .inl (flagsKept_refl s.status)
  | read off w => exact .inl (flagsKept_hostRead s _ w)
  | write off w v => exact flagsAfter_hostWrite s off w v
  | waitIdle => exact .inl (flagsKept_hostRead s _ .w32)
  | hardReset => exact .inr (.inl (.inl rfl))

/-! ## A step -/

/-- A step that lets a flag fall is a reset, or a write of STATUS, by the host. -/
theorem step_flags {s t : State} (h : step s = .next t) :
    FlagsKept s.status t.status ∨ ∃ e, eventOf s = some e ∧ FlagsAfter e s.status t.status := by
  by_cases hcore : s.status.busy = true ∧ s.wait = 0
  · obtain ⟨hbusy, hwait⟩ := hcore
    obtain ⟨t', c, ht', hstatus, -⟩ := runCommand_completes s
    rw [step_command hbusy hwait, ht'] at h
    obtain rfl := Host.Outcome.next.inj h
    exact .inl (hstatus ▸ flagsKept_complete s.status c)
  · cases hq : s.hostQueue with
    | nil =>
      rw [step_noEvent hcore hq] at h
      obtain rfl := Host.Outcome.next.inj h
      exact .inl (tick_status s ▸ flagsKept_refl _)
    | cons e rest =>
      rw [step_event hcore hq] at h
      obtain rfl := Host.Outcome.next.inj h
      refine .inr ⟨e, by rw [eventOf, if_neg hcore, hq, List.head?_cons], ?_⟩
      have hflags := flagsAfter_hostEvent { tick s with hostQueue := eventsAfter s.status.busy e rest } e
      rwa [tick_status] at hflags

/-- A flag that no other operation lets fall, and that a write of STATUS clears where bit `n` is 1, falls by a reset or by such a write
only. -/
theorem cleared_by_host {flag : Status → Bool} {n : Nat}
    (hkept : ∀ {st st'}, FlagsKept st st' → flag st = true → flag st' = true)
    (hwrite : ∀ st v, flag (statusWrite st v) = (flag st && !v.getLsbD n))
    {s t : State} (h : step s = .next t) (hs : flag s.status = true) (ht : flag t.status = false) :
    ∃ e, eventOf s = some e ∧ (IsReset e ∨ ClearsStatusBit e n) := by
  have hfell : ¬FlagsKept s.status t.status := fun hk => by simp [hkept hk hs] at ht
  obtain hk | ⟨e, he, hk | hreset | ⟨v, hv, hst⟩⟩ := step_flags h
  · exact absurd hk hfell
  · exact absurd hk hfell
  · exact ⟨e, he, .inl hreset⟩
  · rw [hst, hwrite, hs] at ht
    exact ⟨e, he, .inr ⟨v, hv, by simpa using ht⟩⟩

end Sys2Proof.Machine

namespace Sys2Proof.Proofs

open Sys2Proof.Machine Sys2Proof.Safety

/-- Settles O54: only a reset and a write of STATUS let a flag fall, and no command reads the CODE it overwrites. -/
theorem stickyFlags : Obligations.StickyFlags := by
  intro s t h
  refine ⟨cleared_by_host FlagsKept.done statusWrite_done h, cleared_by_host FlagsKept.err statusWrite_err h,
    cleared_by_host FlagsKept.ovr statusWrite_ovr h, cleared_by_host FlagsKept.aerr statusWrite_aerr h, ?_⟩
  rintro ⟨hbusy, hwait, -⟩ c
  calc step (s.withCode c) = runCommand (s.withCode c) := step_command (s := s.withCode c) hbusy hwait
    _ = runCommand s := runCommand_withCode s c
    _ = step s := (step_command hbusy hwait).symm
    _ = .next t := h

end Sys2Proof.Proofs
end

section
/-! SUPPORT. Runs of the machine, and the run of an assembler line: its ARG writes, the CMD write, the time of the command, the command,
and the read of STATUS that ends its WAIT (R315, R316). -/

namespace Sys2Proof.Machine

open Sys2Proof.Safety

/-! ## Runs -/

theorem run_succ_of_step (M : Host.Core) {s t : M.State} (h : M.step s = .next t) (k : Nat) :
    M.run (k + 1) s = M.run k t := by
  rw [Host.Core.run, h]

/-- A run goes on from where another ends. -/
theorem run_add_of_run (M : Host.Core) {j : Nat} {s t : M.State} (h : M.run j s = .next t) (k : Nat) :
    M.run (j + k) s = M.run k t := by
  induction j generalizing s with
  | zero => rw [Nat.zero_add, Host.Outcome.next.inj h]
  | succ j ih =>
    rw [Nat.add_right_comm]
    cases hstep : M.step s with
    | next s' =>
      rw [run_succ_of_step M hstep] at h ⊢
      exact ih h
    | fault r => simp [Host.Core.run, hstep] at h
    | refused r => simp [Host.Core.run, hstep] at h

/-- Some number of steps takes `s` to `t`. -/
def Reaches (s t : State) : Prop := ∃ k, Sys2Proof.core.run k s = .next t

theorem reaches_refl (s : State) : Reaches s s := ⟨0, rfl⟩

theorem reaches_of_step {s t : State} (h : step s = .next t) : Reaches s t :=
  ⟨1, run_succ_of_step Sys2Proof.core h 0⟩

theorem reaches_trans {s t u : State} (hst : Reaches s t) (htu : Reaches t u) : Reaches s u := by
  obtain ⟨j, hj⟩ := hst
  obtain ⟨k, hk⟩ := htu
  exact ⟨j + k, (run_add_of_run Sys2Proof.core hj k).trans hk⟩

/-! ## A line up to its CMD write -/

/-- An idle machine performs the host's next event and drops it from the queue (R211, R316). -/
theorem step_event_idle {s : State} {e : HostEvent} {rest : List HostEvent} (hidle : s.status.busy = false)
    (hq : s.hostQueue = e :: rest) : step s = .next (hostEvent { s with hostQueue := rest } e) := by
  rw [step_event (by simp [hidle]) hq]
  simp [tick, eventsAfter, hidle]

/-- The write of a register by an idle machine's host. -/
theorem step_regWrite_idle {s : State} {i : Nat} {v : W32} {rest : List HostEvent} (hidle : s.status.busy = false)
    (hi : i < 16) (hq : s.hostQueue = regWrite (4 * i) v :: rest) :
    step s = .next (writeReg { s with hostQueue := rest } i v) := by
  rw [step_event_idle hidle hq, regWrite, hostEvent_write_reg _ v (toNat_regOffset hi) hi]

@[simp] theorem withKey_status (s : State) (kv : AsmKey × Nat) : (withKey s kv).status = s.status := by
  obtain ⟨k, v⟩ := kv; cases k <;> rfl

/-- A key's ARG writes do not see the queue. -/
theorem withKey_hostQueue (s : State) (kv : AsmKey × Nat) (q : List HostEvent) :
    withKey { s with hostQueue := q } kv = { withKey s kv with hostQueue := q } := by
  obtain ⟨k, v⟩ := kv; cases k <;> rfl

theorem foldl_withKey_status (keys : List (AsmKey × Nat)) (s : State) : (keys.foldl withKey s).status = s.status := by
  induction keys generalizing s with
  | nil => rfl
  | cons kv keys ih => rw [List.foldl_cons, ih, withKey_status]

theorem foldl_withKey_hostQueue (keys : List (AsmKey × Nat)) (s : State) (q : List HostEvent) :
    keys.foldl withKey { s with hostQueue := q } = { keys.foldl withKey s with hostQueue := q } := by
  induction keys generalizing s with
  | nil => rfl
  | cons kv keys ih => rw [List.foldl_cons, withKey_hostQueue, ih, List.foldl_cons]

/-- The write of a register that a running command would drop (R1510). -/
theorem reaches_regWrite_idle {s t : State} {v : W32} {rest : List HostEvent} (i : Nat) (hi : i < 16)
    (hidle : s.status.busy = false) (hq : s.hostQueue = regWrite (4 * i) v :: rest)
    (ht : writeReg { s with hostQueue := rest } i v = unlessBusy { s with hostQueue := rest } t) : Reaches s t := by
  refine reaches_of_step ((step_regWrite_idle hidle hi hq).trans ?_)
  rw [ht, unlessBusy_idle (s := { s with hostQueue := rest }) hidle]

/-- The ARG writes of one key (R315). -/
theorem reaches_key {s : State} (kv : AsmKey × Nat) {q : List HostEvent} (hidle : s.status.busy = false)
    (hq : s.hostQueue = keyWrites kv.1 kv.2 ++ q) : Reaches s { withKey s kv with hostQueue := q } := by
  obtain ⟨k, v⟩ := kv
  cases k with
  | len | mask | mlen => exact reaches_regWrite_idle 5 (by decide) hidle hq rfl
  | off | flags | moff => exact reaches_regWrite_idle 6 (by decide) hidle hq rfl
  | dlen => exact reaches_regWrite_idle 7 (by decide) hidle hq rfl
  | doff => exact reaches_regWrite_idle 8 (by decide) hidle hq rfl
  | size =>
    have hq' : s.hostQueue = regWrite 0x01C (BitVec.ofNat 32 v) :: regWrite 0x020 (BitVec.ofNat 32 (v / 2 ^ 32)) :: q := by
      rw [← Nat.shiftRight_eq_div_pow]; exact hq
    exact reaches_trans (reaches_regWrite_idle 7 (by decide) hidle hq' rfl)
      (reaches_regWrite_idle 8 (by decide) hidle rfl rfl)

/-- The ARG writes of a line, in key order (R315). -/
theorem reaches_keys (keys : List (AsmKey × Nat)) {s : State} {q : List HostEvent} (hidle : s.status.busy = false)
    (hq : s.hostQueue = keys.flatMap (fun kv => keyWrites kv.1 kv.2) ++ q) :
    Reaches s { keys.foldl withKey s with hostQueue := q } := by
  induction keys generalizing s with
  | nil =>
    have hq' : s.hostQueue = q := hq
    subst hq'
    exact reaches_refl s
  | cons kv keys ih =>
    rw [List.flatMap_cons, List.append_assoc] at hq
    have hrest := ih (s := { withKey s kv with hostQueue := keys.flatMap (fun kv => keyWrites kv.1 kv.2) ++ q })
      ((congrArg Status.busy (withKey_status s kv)).trans hidle) rfl
    rw [foldl_withKey_hostQueue] at hrest
    exact reaches_trans (reaches_key kv hidle hq) hrest

/-- A line up to the acceptance of its command (R105, R315). -/
theorem reaches_accept (keys : List (AsmKey × Nat)) {s : State} {w : W32} {q : List HostEvent} (hidle : s.status.busy = false)
    (hq : s.hostQueue = keys.flatMap (fun kv => keyWrites kv.1 kv.2) ++ regWrite 0x00C w :: q) :
    Reaches s (State.accept { keys.foldl withKey s with hostQueue := q } w) := by
  have hidle' : (keys.foldl withKey s).status.busy = false := (congrArg Status.busy (foldl_withKey_status keys s)).trans hidle
  exact reaches_trans (reaches_keys keys hidle hq) (reaches_regWrite_idle 3 (by decide) hidle' rfl rfl)

/-! ## The command's time, and the end of WAIT -/

/-- A running command whose time has elapsed, after the host's reads of STATUS have left `x` as the value read and `d` as the count of
drawings. -/
def State.elapsed (s : State) (x : W32) (d : Nat) : State := { s with wait := 0, rdata := x, draws := d }

/-- WAIT reads STATUS and stays while BUSY = 1 (R316). -/
theorem step_waitIdle_busy {s : State} {n : Nat} {rest : List HostEvent} (hbusy : s.status.busy = true)
    (hwait : s.wait = n + 1) (hq : s.hostQueue = .waitIdle :: rest) :
    step s = .next { s with wait := n, rdata := statusRead s s.draws, draws := s.draws + 1 } := by
  have htick : tick s = { s with wait := n } := by simp [tick, hbusy, hwait]
  have hstays : eventsAfter s.status.busy .waitIdle rest = s.hostQueue := by simp [eventsAfter, hbusy, hq]
  rw [step_event (by simp [hwait]) hq, htick, hstays, hostEvent_waitIdle]
  rfl

/-- While the host waits, the time of a command elapses (R1513). -/
theorem reaches_elapsed {s : State} {rest : List HostEvent} (hbusy : s.status.busy = true)
    (hq : s.hostQueue = .waitIdle :: rest) : ∃ x d, Reaches s (s.elapsed x d) := by
  generalize hn : s.wait = n
  induction n generalizing s with
  | zero =>
    refine ⟨s.rdata, s.draws, ?_⟩
    have hself : s.elapsed s.rdata s.draws = s := by rw [State.elapsed, ← hn]
    exact hself.symm ▸ reaches_refl s
  | succ n ih =>
    obtain ⟨x, d, hrest⟩ := ih (s := { s with wait := n, rdata := statusRead s s.draws, draws := s.draws + 1 }) hbusy hq rfl
    exact ⟨x, d, reaches_trans (reaches_of_step (step_waitIdle_busy hbusy hn hq)) hrest⟩

/-- WAIT ends with the read of an idle machine's STATUS (R316). -/
theorem step_waitIdle_idle {s : State} {rest : List HostEvent} (hidle : s.status.busy = false)
    (hq : s.hostQueue = .waitIdle :: rest) :
    step s = .next { s with hostQueue := rest, rdata := statusWord s.status, draws := s.draws + 1 } := by
  rw [step_event_idle hidle hq, hostEvent_waitIdle, statusRead_idle (s := { s with hostQueue := rest }) hidle]

/-- A WAIT carries a running command to its end, and reads its STATUS (R105, R316). -/
theorem reaches_waitIdle_end {s : State} {i : Instr} {rest : List HostEvent} (hbusy : s.status.busy = true)
    (hdecode : Sys2Proof.decode s.pcmd = .ok i) (hq : s.hostQueue = .waitIdle :: rest) :
    ∃ x d u, exec i (s.elapsed x d) = .next u ∧
      Reaches s { u with hostQueue := rest, rdata := statusWord u.status, draws := u.draws + 1 } := by
  obtain ⟨x, d, helapsed⟩ := reaches_elapsed hbusy hq
  obtain ⟨u, c, hexec, hstatus, hqueue⟩ := exec_completes i (s.elapsed x d)
  have hcommand : step (s.elapsed x d) = .next u :=
    (step_command (s := s.elapsed x d) hbusy rfl).trans ((runCommand_of_decode_ok (s := s.elapsed x d) hdecode).trans hexec)
  have hend := step_waitIdle_idle (congrArg Status.busy hstatus) (hqueue.trans hq)
  exact ⟨x, d, u, hexec, reaches_trans helapsed (reaches_trans (reaches_of_step hcommand) (reaches_of_step hend))⟩

end Sys2Proof.Machine

namespace Sys2Proof.Proofs

open Sys2Proof.Machine Sys2Proof.Safety

/-- Settles O58: the ARG writes by induction over the keys, then the CMD write, the command's time by induction over it, the command, and
the read of STATUS that ends WAIT. -/
theorem lineRuns : Obligations.LineRuns := by
  intro s i keys rest hidle hwf hq
  rw [asmLine, List.append_assoc] at hq
  obtain ⟨x, d, u, hexec, hend⟩ := reaches_waitIdle_end (rest := rest)
    (s := State.accept { keys.foldl withKey s with hostQueue := .waitIdle :: rest } (Sys2Proof.encode i))
    rfl (decode_encode hwf) rfl
  obtain ⟨k, hk⟩ := reaches_trans (reaches_accept keys hidle hq) hend
  exact ⟨k, x, d, u, foldl_withKey_status keys s ▸ hexec, hk⟩

end Sys2Proof.Proofs
end

section
/-! SUPPORT. A step of the host: its next event, and what the events of the host leave unchanged while a command runs (R211, R1510). -/

namespace Sys2Proof.Machine

theorem tick_eq (s : State) : tick s = { s with wait := if s.status.busy then s.wait - 1 else s.wait } := by
  unfold tick
  by_cases hbusy : s.status.busy = true
  · rw [if_pos hbusy, if_pos hbusy]
  · rw [if_neg hbusy, if_neg hbusy]

/-- What a running command depends on: its word, its operands, the sessions, and the time it still takes. -/
structure Running where
  params : Config.Params
  pcmd : W32
  arg0 : W32
  arg1 : W32
  arg2 : W32
  arg3 : W32
  ibuf : Memory
  slots : List Slot
  scr : Option Ctx
  wait : Nat

/-- Those fields of the state. They stand for the command while BUSY = 1, and mean nothing otherwise. -/
def State.running (s : State) : Running :=
  { params := s.params, pcmd := s.pcmd, arg0 := s.arg0, arg1 := s.arg1, arg2 := s.arg2, arg3 := s.arg3, ibuf := s.ibuf,
    slots := s.slots, scr := s.scr, wait := s.wait }

theorem hostRead_running (s : State) (off : Nat) (w : Width) : (hostRead s off w).running = s.running := by
  unfold hostRead
  split <;> rfl

/-- While a command runs, a write that waits for BUSY = 0 is dropped (R1510). -/
theorem unlessBusy_running {s : State} (hbusy : s.status.busy = true) (t : State) :
    (unlessBusy s t).running = s.running := by
  rw [unlessBusy, if_pos hbusy]
  rfl

/-- Of the registers, only CTRL reaches the operands of a running command, by the soft reset that ends it (R1502, R1510). -/
theorem writeReg_running {s : State} (hbusy : s.status.busy = true) (i : Nat) (v : W32) :
    (writeReg s i v).running = s.running ∨ (writeReg s i v).status.busy = false := by
  unfold writeReg
  split
  next => exact .inl (unlessBusy_running hbusy _)
  next => exact .inl rfl
  next => exact .inl (unlessBusy_running hbusy _)
  next => exact .inl (unlessBusy_running hbusy _)
  next => exact .inl (unlessBusy_running hbusy _)
  next => exact .inl (unlessBusy_running hbusy _)
  next => exact .inl rfl
  next =>
    split
    · exact .inr rfl
    · exact .inl rfl
  next => exact .inl rfl

theorem hostWrite_running {s : State} (hbusy : s.status.busy = true) (off : Nat) (w : Width) (v : W32) :
    (hostWrite s off w v).running = s.running ∨ (hostWrite s off w v).status.busy = false := by
  unfold hostWrite
  cases targetOf s.params off w with
  | reg i => exact writeReg_running hbusy i v
  | ibuf k => exact .inl (unlessBusy_running hbusy _)
  | obuf k => exact .inl rfl
  | none => exact .inl rfl

/-- An event of the host leaves a running command as it is, or is a reset that ends it. -/
theorem hostEvent_running {s : State} (hbusy : s.status.busy = true) (e : HostEvent) :
    (hostEvent s e).running = s.running ∨ (hostEvent s e).status.busy = false := by
  cases e with
  | idle => exact .inl rfl
  | read off w => exact .inl (hostRead_running s _ w)
  | write off w v => exact hostWrite_running hbusy _ w v
  | waitIdle => exact .inl (hostRead_running s _ .w32)
  | hardReset => exact .inr rfl

/-- A step of a running command ends it, or takes one from its time and changes nothing else that it depends on. -/
theorem step_running {s t : State} (hbusy : s.status.busy = true) (h : step s = .next t) :
    (∃ n, s.wait = n + 1 ∧ t.running = { s.running with wait := n }) ∨ t.status.busy = false := by
  cases hwait : s.wait with
  | zero =>
    obtain ⟨t', c, ht', hstatus, -⟩ := runCommand_completes s
    rw [step_command hbusy hwait, ht'] at h
    obtain rfl := Host.Outcome.next.inj h
    exact .inr (congrArg Status.busy hstatus)
  | succ n =>
    have hcore : ¬(s.status.busy = true ∧ s.wait = 0) := by simp [hwait]
    have htick : tick s = { s with wait := n } := by simp [tick, hbusy, hwait]
    cases hq : s.hostQueue with
    | nil =>
      rw [step_noEvent hcore hq, htick] at h
      obtain rfl := Host.Outcome.next.inj h
      exact .inl ⟨n, rfl, rfl⟩
    | cons e rest =>
      rw [step_event hcore hq, htick] at h
      obtain rfl := Host.Outcome.next.inj h
      have hevent := hostEvent_running (s := { s with wait := n, hostQueue := eventsAfter s.status.busy e rest }) hbusy e
      exact hevent.imp_left fun hkept => ⟨n, rfl, hkept⟩

end Sys2Proof.Machine

namespace Sys2Proof.Proofs

open Sys2Proof.Machine

/-- Settles O7: the time of a running command goes down, and the host's next event, if it has one, is performed on that state. -/
theorem stepPerformsHostEvent : Obligations.StepPerformsHostEvent := by
  intro s hcore
  refine ⟨fun hq => ?_, fun e rest hq => ?_⟩
  · rw [step_noEvent hcore hq, tick_eq]
  · rw [step_event hcore hq, tick_eq]
    rfl

/-- Settles O56: the core's step ends the command, and so does a reset; every other event of the host leaves it as it is. -/
theorem operandsStable : Obligations.OperandsStable := by
  intro s t hbusy hstep hstill
  obtain ⟨n, hwait, hkept⟩ | hended := step_running hbusy hstep
  · obtain ⟨hparams, hpcmd, h0, h1, h2, h3, hibuf, hslots, hscr, hleft⟩ := Running.mk.inj hkept
    exact ⟨hparams, hpcmd, h0, h1, h2, h3, hibuf, hslots, hscr, by rw [hleft, hwait]⟩
  · rw [hended] at hstill
    cases hstill

end Sys2Proof.Proofs
end

section
/-! SUPPORT. The accesses the window admits, and what a host access does by its target (R201, R203, R205, R206). -/

namespace Sys2Proof.Machine

open Sys2Proof.Safety

/-! ## The target of an access (R201, R205) -/

/-- An access in no region has no target (R205). -/
theorem targetOf_noAccess {p : Config.Params} {off : Nat} {w : Width} (hreg : ¬RegAccess off w)
    (hibuf : ¬IbufAccess p off w) (hobuf : ¬ObufAccess p off w) : targetOf p off w = .none := by
  by_cases halign : off % accessBytes w = 0
  · have hnoIbuf : ¬(ibufBase ≤ off ∧ off + accessBytes w ≤ ibufBase + p.ibufSize) := fun hin => hibuf ⟨halign, hin⟩
    have hnoObuf : ¬(obufBase ≤ off ∧ off + accessBytes w ≤ obufBase + p.obufSize) := fun hin => hobuf ⟨halign, hin⟩
    rw [targetOf, if_neg (Decidable.not_not.2 halign), if_neg hnoIbuf, if_neg hnoObuf]
    by_cases hlow : off < 0x40
    · have hw : w ≠ .w32 := by
        rintro rfl
        exact hreg ⟨rfl, halign, hlow⟩
      rw [if_pos hlow, if_neg hw]
    · rw [if_neg hlow]
  · rw [targetOf, if_pos halign]

/-- An access goes to the region it lies in, and to no other target (R201, R205). -/
theorem targetOf_eq (p : Config.Params) (off : Nat) (w : Width) :
    targetOf p off w = if RegAccess off w then .reg (off / 4) else if IbufAccess p off w then .ibuf (off - 0x1000)
      else if ObufAccess p off w then .obuf (off - 0x2000) else .none := by
  split
  next hreg => exact targetOf_eq_reg.2 ⟨hreg.1, by omega, by omega⟩
  next hreg =>
    split
    next hibuf =>
      obtain ⟨halign, hlo, hhi⟩ := hibuf
      rw [targetOf, if_neg (Decidable.not_not.2 halign), if_neg (by omega), if_pos ⟨hlo, hhi⟩, ibufBase]
    next hibuf =>
      split
      next hobuf =>
        obtain ⟨halign, hlo, hhi⟩ := hobuf
        have hpast : ¬(ibufBase ≤ off ∧ off + accessBytes w ≤ ibufBase + p.ibufSize) := fun hin => hibuf ⟨halign, hin⟩
        rw [targetOf, if_neg (Decidable.not_not.2 halign), if_neg (by omega), if_neg hpast, if_pos ⟨hlo, hhi⟩, obufBase]
      next hobuf => exact targetOf_noAccess hreg hibuf hobuf

theorem targetOf_ibufAccess {p : Config.Params} {off : Nat} {w : Width} (h : IbufAccess p off w) :
    targetOf p off w = .ibuf (off - 0x1000) := by
  have hreg : ¬RegAccess off w := fun hr => by omega
  rw [targetOf_eq, if_neg hreg, if_pos h]

theorem targetOf_obufAccess {p : Config.Params} {off : Nat} {w : Width} (hibuf : ¬IbufAccess p off w)
    (h : ObufAccess p off w) : targetOf p off w = .obuf (off - 0x2000) := by
  have hreg : ¬RegAccess off w := fun hr => by omega
  rw [targetOf_eq, if_neg hreg, if_neg hibuf, if_pos h]

/-- The window refuses exactly the accesses that lie in no region (R205). -/
theorem targetOf_eq_none {p : Config.Params} {off : Nat} {w : Width} :
    targetOf p off w = .none ↔ ¬(RegAccess off w ∨ IbufAccess p off w ∨ ObufAccess p off w) := by
  rw [targetOf_eq]
  split
  next hreg => exact iff_of_false nofun (Decidable.not_not.2 (.inl hreg))
  next hreg =>
    split
    next hibuf => exact iff_of_false nofun (Decidable.not_not.2 (.inr (.inl hibuf)))
    next hibuf =>
      split
      next hobuf => exact iff_of_false nofun (Decidable.not_not.2 (.inr (.inr hobuf)))
      next hobuf => exact iff_of_true rfl (not_or.2 ⟨hreg, not_or.2 ⟨hibuf, hobuf⟩⟩)

/-! ## Accesses by their target (R205, R206) -/

/-- A refused read returns 0 and sets AERR (R205). -/
theorem hostRead_refused {s : State} {off : Nat} {w : Width} (h : targetOf s.params off w = .none) :
    hostRead s off w = { s.accessError with rdata := 0, draws := s.draws + 1 } := by
  have hvalue : readValue s off w = 0 := by simp [readValue, h]
  rw [hostRead, if_pos h, hvalue]

/-- An admitted read returns its value and changes nothing of the machine (R206). -/
theorem hostRead_admitted {s : State} {off : Nat} {w : Width} (h : targetOf s.params off w ≠ .none) :
    hostRead s off w = { s with rdata := readValue s off w, draws := s.draws + 1 } := by
  rw [hostRead, if_neg h]

/-- A write outside the registers and IBUF, OBUF's own bytes included, sets AERR and is not performed (R205). -/
theorem hostWrite_refused {s : State} {off : Nat} {w : Width} (v : W32) (hreg : ¬RegAccess off w)
    (hibuf : ¬IbufAccess s.params off w) : hostWrite s off w v = s.accessError := by
  by_cases hobuf : ObufAccess s.params off w
  · simp only [hostWrite, targetOf_obufAccess hibuf hobuf]
  · have hnone : targetOf s.params off w = .none := targetOf_eq_none.2 (not_or.2 ⟨hreg, not_or.2 ⟨hibuf, hobuf⟩⟩)
    simp only [hostWrite, hnone]

end Sys2Proof.Machine

namespace Sys2Proof.Proofs

open Sys2Proof.Machine Sys2Proof.Safety

/-- Settles O47: such an access has no target, or for a write OBUF, and is refused. -/
theorem unadmittedAccess : Obligations.UnadmittedAccess := by
  intro s off w
  refine ⟨fun hno => ⟨s.draws + 1, hostRead_refused (targetOf_eq_none.2 hno)⟩, fun hno v => ?_⟩
  obtain ⟨hreg, hibuf⟩ := not_or.1 hno
  exact hostWrite_refused v hreg hibuf

/-- Settles O49: a read is refused, and sets AERR, or is admitted, and the access decides which. -/
theorem readsHaveNoSideEffect : Obligations.ReadsHaveNoSideEffect := by
  intro s off w
  refine ⟨?_, fun hacc => ⟨_, _, hostRead_admitted fun hnone => targetOf_eq_none.1 hnone hacc⟩⟩
  by_cases htarget : targetOf s.params off.toNat w = .none
  · exact ⟨true, _, _, hostRead_refused htarget⟩
  · exact ⟨s.status.aerr, _, _, hostRead_admitted htarget⟩

end Sys2Proof.Proofs
end

section
/-! SUPPORT. The byte order of the buffers: the integer of a little-endian byte string and its bytes, and what the accesses to IBUF and
OBUF store and return (R204). -/

namespace Sys2Proof.Machine

open Sys2Proof.Safety

/-! ## Little-endian byte strings (R14) -/

theorem toLeN_eq (v k : Nat) : toLeN v k = (List.range k).map fun i => BitVec.ofNat 8 (v / 2 ^ (8 * i)) := by
  simp only [toLeN, Nat.shiftRight_eq_div_pow]

theorem getElem?_toLeN {v k i : Nat} (h : i < k) : (toLeN v k)[i]? = some (BitVec.ofNat 8 (v / 2 ^ (8 * i))) := by
  simp [toLeN_eq, h]

theorem toLeN_succ (v k : Nat) : toLeN v (k + 1) = BitVec.ofNat 8 v :: toLeN (v / 256) k := by
  have hshift : ∀ i, v / 2 ^ (8 * (i + 1)) = v / 256 / 2 ^ (8 * i) := fun i => by
    rw [Nat.div_div_eq_div_mul, Nat.mul_succ, Nat.pow_add, Nat.mul_comm]
  simp [toLeN_eq, List.range_succ_eq_map, Function.comp_def, hshift]

/-- The `k` bytes of a number give it back modulo the numbers they can hold. -/
theorem leNat_toLeN (v k : Nat) : leNat (toLeN v k) = v % 256 ^ k := by
  induction k generalizing v with
  | zero => simp [toLeN, leNat, Nat.mod_one]
  | succ k ih => rw [toLeN_succ, leNat, ih, BitVec.toNat_ofNat, Nat.pow_succ' (n := k), Nat.mod_mul]

theorem leNat_lt (bs : Bytes) : leNat bs < 256 ^ bs.length := by
  induction bs with
  | nil => exact Nat.one_pos
  | cons b bs ih =>
    have hb := b.isLt
    rw [leNat, List.length_cons, Nat.pow_succ']
    omega

/-- Byte `i` of a little-endian number stands at bit `8 * i`. -/
theorem leNat_div_mod {bs : Bytes} {i : Nat} (h : i < bs.length) : leNat bs / 256 ^ i % 256 = bs[i].toNat := by
  induction bs generalizing i with
  | nil => cases h
  | cons b bs ih =>
    have hb := b.isLt
    cases i with
    | zero => rw [leNat, Nat.pow_zero, Nat.div_one, List.getElem_cons_zero]; omega
    | succ i =>
      have htail : (b.toNat + 256 * leNat bs) / 256 = leNat bs := by omega
      rw [leNat, Nat.pow_succ', ← Nat.div_div_eq_div_mul, htail, List.getElem_cons_succ]
      exact ih (Nat.lt_of_succ_lt_succ h)

/-! ## The word of an access (R204) -/

theorem accessBytes_pos (w : Width) : 0 < accessBytes w := by cases w <;> decide

/-- The bytes of an access fit the word that the host reads. -/
theorem pow_accessBytes_le (w : Width) : 256 ^ accessBytes w ≤ 2 ^ 32 := by cases w <;> decide

theorem toNat_assembleBytes (byteAt : Nat → Byte) (k : Nat) (w : Width) :
    (assembleBytes byteAt k w).toNat = leNat ((List.range (accessBytes w)).map fun i => byteAt (k + i)) := by
  have hlt := leNat_lt ((List.range (accessBytes w)).map fun i => byteAt (k + i))
  rw [List.length_map, List.length_range] at hlt
  rw [assembleBytes, BitVec.toNat_ofNat, Nat.mod_eq_of_lt (Nat.lt_of_lt_of_le hlt (pow_accessBytes_le w))]

theorem toNat_assembleBytes_lt (byteAt : Nat → Byte) (k : Nat) (w : Width) :
    (assembleBytes byteAt k w).toNat < 256 ^ accessBytes w := by
  have hlt := leNat_lt ((List.range (accessBytes w)).map fun i => byteAt (k + i))
  rwa [List.length_map, List.length_range, ← toNat_assembleBytes] at hlt

/-- Byte `i` of the word read is byte `i` of the access. -/
theorem assembleBytes_div_mod (byteAt : Nat → Byte) (k : Nat) {w : Width} {i : Nat} (h : i < accessBytes w) :
    (assembleBytes byteAt k w).toNat / 256 ^ i % 256 = (byteAt (k + i)).toNat := by
  rw [toNat_assembleBytes, leNat_div_mod (by simpa using h), List.getElem_map, List.getElem_range]

theorem toNat_assembleBytes_w8 (byteAt : Nat → Byte) (k : Nat) : (assembleBytes byteAt k .w8).toNat = (byteAt k).toNat :=
  toNat_assembleBytes byteAt k .w8

/-- A word whose bytes are those of `v` is `v`, cut to the width of the access. -/
theorem toNat_assembleBytes_of_bytes {byteAt : Nat → Byte} {k v : Nat} {w : Width}
    (h : ∀ i < accessBytes w, byteAt (k + i) = BitVec.ofNat 8 (v / 2 ^ (8 * i))) :
    (assembleBytes byteAt k w).toNat = v % 256 ^ accessBytes w := by
  rw [toNat_assembleBytes, ← leNat_toLeN, toLeN_eq]
  exact congrArg leNat (List.map_congr_left fun i hi => h i (List.mem_range.1 hi))

/-! ## The buffers through the window (R201, R204) -/

theorem readBack_eq {s : State} {off : Nat} {w : Width} (hoff : off < 2 ^ 14) : readBack s off w = readValue s off w := by
  rw [readBack, hostEvent, BitVec.toNat_ofNat, Nat.mod_eq_of_lt hoff]
  unfold hostRead
  rfl

theorem readBack_ibuf {s : State} {off : Nat} {w : Width} (hp : s.params.wf) (h : IbufAccess s.params off w) :
    readBack s off w = assembleBytes (ibufByte s s.draws) (off - 0x1000) w := by
  have hpos := accessBytes_pos w
  rw [readBack_eq (by omega)]
  simp only [readValue, targetOf_ibufAccess h]

/-- OBUF as an idle machine's host reads it: it lies past IBUF, whose size R9 bounds. -/
theorem readBack_obuf {s : State} {off : Nat} {w : Width} (hp : s.params.wf) (hidle : s.status.busy = false)
    (h : ObufAccess s.params off w) : readBack s off w = assembleBytes (obufByte s s.draws) (off - 0x2000) w := by
  have hpos := accessBytes_pos w
  have hibuf : ¬IbufAccess s.params off w := fun hin => by omega
  rw [readBack_eq (by omega)]
  simp only [readValue, targetOf_obufAccess hibuf h, hidle, Bool.false_eq_true, if_false]

/-- A write to IBUF by an idle machine's host stores its bytes, and changes nothing else. -/
theorem hostEvent_write_ibuf {s : State} {off : BitVec 14} {w : Width} (v : W32) (hidle : s.status.busy = false)
    (h : IbufAccess s.params off.toNat w) : hostEvent s (.write off w v) =
      { s with ibuf := memStore s.ibuf (off.toNat - 0x1000) (toLeN v.toNat (accessBytes w)) } := by
  simp only [hostEvent, hostWrite, targetOf_ibufAccess h]
  exact unlessBusy_idle hidle _

theorem ibufByte_memStore (s : State) (k : Nat) (bs : Bytes) (draw : Nat) {j : Nat} {b : Byte} (h : bs[j]? = some b) :
    ibufByte { s with ibuf := memStore s.ibuf k bs } draw (k + j) = b := by
  obtain ⟨hlt, -⟩ := List.getElem?_eq_some_iff.1 h
  simp only [ibufByte, memGet_memStore, if_pos (show k ≤ k + j ∧ k + j < k + bs.length by omega), Nat.add_sub_cancel_left, h,
    Option.getD_some]

theorem ibufByte_memStore_outside (s : State) {k : Nat} {bs : Bytes} (draw : Nat) {j : Nat} (h : j < k ∨ k + bs.length ≤ j) :
    ibufByte { s with ibuf := memStore s.ibuf k bs } draw j = ibufByte s draw j := by
  simp only [ibufByte, memGet_memStore, if_neg (show ¬(k ≤ j ∧ j < k + bs.length) by omega)]

end Sys2Proof.Machine

namespace Sys2Proof.Proofs

open Sys2Proof.Machine Sys2Proof.Safety

/-- Settles O48: a write stores the bytes of its value, a read assembles the bytes that stand there, and the two are inverse. -/
theorem bufferByteOrder : Obligations.BufferByteOrder := by
  have hpow : ∀ n, 256 ^ n = 2 ^ (8 * n) := fun n => (Nat.pow_mul 2 8 n).symm
  refine ⟨fun s off w v hp hidle hacc => ?_, fun s off w hp hidle hacc => ?_⟩
  · have hwrite := hostEvent_write_ibuf v hidle hacc
    generalize hostEvent s (.write off w v) = t at hwrite ⊢
    have hbyte : ∀ draw, ∀ i < accessBytes w,
        ibufByte t draw (off.toNat - 0x1000 + i) = BitVec.ofNat 8 (v.toNat / 2 ^ (8 * i)) := fun draw i hi =>
      hwrite ▸ ibufByte_memStore s _ _ draw (getElem?_toLeN hi)
    have hparams : t.params = s.params := by rw [hwrite]
    have hpt : t.params.wf := hparams ▸ hp
    refine ⟨hbyte, fun draw k hk => ?_, ?_, ?_, fun i hi => ?_⟩
    · rw [← length_toLeN v.toNat (accessBytes w)] at hk
      exact hwrite ▸ ibufByte_memStore_outside s draw hk
    · rw [hwrite]
    · rw [readBack_ibuf hpt (hparams ▸ hacc), toNat_assembleBytes_of_bytes (hbyte _), hpow]
    · obtain ⟨-, hlo, hhi⟩ := hacc
      have hacc' : IbufAccess t.params (off.toNat + i) .w8 := by
        rw [hparams]
        exact ⟨Nat.mod_one _, by omega, by simp only [accessBytes]; omega⟩
      have hk : off.toNat + i - 0x1000 = off.toNat - 0x1000 + i := by omega
      rw [readBack_ibuf hpt hacc', toNat_assembleBytes_w8, hk, hbyte _ i hi, BitVec.toNat_ofNat]
  · rw [readBack_obuf hp hidle hacc, ← hpow]
    exact ⟨toNat_assembleBytes_lt _ _ w, fun i hi => hpow i ▸ assembleBytes_div_mod _ _ hi⟩

end Sys2Proof.Proofs
end

section
/-! SUPPORT. The word of a command by its four fields: a word is determined by them, a mask acts on each of them, and the decoder accepts a
word by them (R301, R310, R311). -/

namespace Sys2Proof

/-! ## A word and its fields (R301) -/

/-- The fields of format C cover the word. -/
theorem toNat_eq_fields (w : W32) :
    w.toNat = rsvField w * 2 ^ 20 + sidField w * 2 ^ 16 + selField w * 2 ^ 8 + opField w := by
  rw [rsvField_eq, sidField_eq, selField_eq, opField_eq]
  omega

theorem word_eq_iff_fields {v w : W32} :
    v = w ↔ opField v = opField w ∧ selField v = selField w ∧ sidField v = sidField w ∧ rsvField v = rsvField w := by
  refine ⟨fun h => h ▸ ⟨rfl, rfl, rfl, rfl⟩, fun ⟨hop, hsel, hsid, hrsv⟩ => BitVec.eq_of_toNat_eq ?_⟩
  rw [toNat_eq_fields v, toNat_eq_fields w, hop, hsel, hsid, hrsv]

theorem opField_lt (w : W32) : opField w < 2 ^ 8 := (w.extractLsb' 0 8).isLt

theorem selField_lt (w : W32) : selField w < 2 ^ 8 := (w.extractLsb' 8 8).isLt

theorem sidField_lt (w : W32) : sidField w < 2 ^ 4 := (w.extractLsb' 16 4).isLt

theorem rsvField_lt (w : W32) : rsvField w < 2 ^ 12 := (w.extractLsb' 20 12).isLt

theorem opField_and (v w : W32) : opField (v &&& w) = opField v &&& opField w := by
  simp only [opField, BitVec.extractLsb'_and, BitVec.toNat_and]

theorem selField_and (v w : W32) : selField (v &&& w) = selField v &&& selField w := by
  simp only [selField, BitVec.extractLsb'_and, BitVec.toNat_and]

theorem sidField_and (v w : W32) : sidField (v &&& w) = sidField v &&& sidField w := by
  simp only [sidField, BitVec.extractLsb'_and, BitVec.toNat_and]

theorem rsvField_and (v w : W32) : rsvField (v &&& w) = rsvField v &&& rsvField w := by
  simp only [rsvField, BitVec.extractLsb'_and, BitVec.toNat_and]

/-! ## The rows of the opcode map (R310, R311) -/

/-- The opcode map gives each opcode to one row only. -/
theorem opOfNat_eq_some_iff {n : Nat} {op : Op} : opOfNat n = some op ↔ n = opNat op := by
  refine ⟨fun h => ?_, fun h => h ▸ opOfNat_opNat op⟩
  unfold opOfNat at h
  split at h <;> cases h <;> rfl

/-- A row's mask covers OP and RSV, and SEL and SID where they must be zero (R311). -/
theorem fields_rowMask (op : Op) :
    opField (rowMask op) = 2 ^ 8 - 1 ∧ selField (rowMask op) = (if opUsesSel op then 0 else 2 ^ 8 - 1) ∧
      sidField (rowMask op) = (if opUsesSid op then 0 else 2 ^ 4 - 1) ∧ rsvField (rowMask op) = 2 ^ 12 - 1 := by
  unfold rowMask
  cases opUsesSel op <;> cases opUsesSid op <;> decide

theorem fields_rowMatch (op : Op) :
    opField (rowMatch op) = opNat op ∧ selField (rowMatch op) = 0 ∧ sidField (rowMatch op) = 0 ∧
      rsvField (rowMatch op) = 0 := by
  cases op <;> decide

/-- A field under a mask that covers it only where it is not `used`: it is zero exactly when it is used or itself zero. -/
theorem and_mask_eq_zero_iff {x k : Nat} (hx : x < 2 ^ k) (used : Bool) :
    x &&& (if used then 0 else 2 ^ k - 1) = 0 ↔ used = true ∨ x = 0 := by
  cases used <;> simp [Nat.and_two_pow_sub_one_eq_mod, Nat.mod_eq_of_lt hx]

theorem fieldsOk_iff {op : Op} {w : W32} :
    fieldsOk op w = true ↔
      (opUsesSel op = true ∨ selField w = 0) ∧ (opUsesSid op = true ∨ sidField w = 0) ∧ rsvField w = 0 := by
  rw [← and_rotate]
  simp [fieldsOk, and_assoc]

/-- A row matches the words of its opcode whose must-be-zero fields are zero (R311, R313). -/
theorem and_rowMask_eq_rowMatch_iff {op : Op} {w : W32} :
    w &&& rowMask op = rowMatch op ↔ opField w = opNat op ∧ fieldsOk op w = true := by
  obtain ⟨hop, hsel, hsid, hrsv⟩ := fields_rowMask op
  obtain ⟨hop', hsel', hsid', hrsv'⟩ := fields_rowMatch op
  rw [word_eq_iff_fields, opField_and, selField_and, sidField_and, rsvField_and, hop, hsel, hsid, hrsv, hop', hsel', hsid',
    hrsv', Nat.and_two_pow_sub_one_of_lt_two_pow (opField_lt w), Nat.and_two_pow_sub_one_of_lt_two_pow (rsvField_lt w),
    and_mask_eq_zero_iff (selField_lt w), and_mask_eq_zero_iff (sidField_lt w), fieldsOk_iff]

/-! ## The words the decoder accepts -/

/-- The decoder accepts a word for a row when OP is the row's and the must-be-zero fields are zero (R310, R313). -/
theorem decode_eq_ok_iff {w : W32} {i : Instr} :
    decode w = .ok i ↔ opField w = opNat (opOf i) ∧ fieldsOk (opOf i) w = true ∧
      instrOf (selField w) (sidField w) (opOf i) = i := by
  rw [decode_eq]
  constructor
  · intro h
    cases hop : opOfNat (opField w) with
    | none => simp [hop] at h
    | some op =>
      simp only [hop] at h
      split at h
      next hok =>
        obtain rfl := Except.ok.inj h
        rw [opOf_instrOf]
        exact ⟨opOfNat_eq_some_iff.1 hop, hok, rfl⟩
      next => cases h
  · rintro ⟨hop, hok, hi⟩
    simp [opOfNat_eq_some_iff.2 hop, hok, hi]

/-- A word decodes to a command of a row by its opcode and its must-be-zero fields alone. -/
theorem exists_decode_of_row_iff {op : Op} {w : W32} :
    (∃ i, decode w = .ok i ∧ opOf i = op) ↔ opField w = opNat op ∧ fieldsOk op w = true := by
  constructor
  · rintro ⟨i, hi, rfl⟩
    obtain ⟨hop, hok, -⟩ := decode_eq_ok_iff.1 hi
    exact ⟨hop, hok⟩
  · rintro ⟨hop, hok⟩
    have hrow := opOf_instrOf (selField w) (sidField w) op
    exact ⟨_, decode_eq_ok_iff.2 (hrow.symm ▸ ⟨hop, hok, rfl⟩), hrow⟩

/-- The SEL number of a command is the field it is made of, where the row has a SEL or the field is zero (R310). -/
theorem selOf_instrOf {op : Op} {sel : Nat} (h : opUsesSel op = true ∨ sel = 0) (sid : Nat) :
    selOf (instrOf sel sid op) = sel := by
  cases op <;> simp_all [opUsesSel, instrOf, selOf]

theorem sidOf_instrOf {op : Op} {sid : Nat} (h : opUsesSid op = true ∨ sid = 0) (sel : Nat) :
    sidOf (instrOf sel sid op) = sid := by
  cases op <;> simp_all [opUsesSid, instrOf, sidOf]

/-- A word that decodes is the word of its command: its four fields are those the encoder writes (R301, R310, R317). -/
theorem encode_of_decode {w : W32} {i : Instr} (h : decode w = .ok i) : encode i = w := by
  obtain ⟨hop, hsel, hsid, hrsv⟩ := Laws.encodeFields_of_wf i (wf_of_decode h)
  obtain ⟨hopw, hok, hi⟩ := decode_eq_ok_iff.1 h
  obtain ⟨hselw, hsidw, hrsvw⟩ := fieldsOk_iff.1 hok
  have hselOf : selOf i = selField w := hi ▸ selOf_instrOf hselw _
  have hsidOf : sidOf i = sidField w := hi ▸ sidOf_instrOf hsidw _
  exact word_eq_iff_fields.2 ⟨hop.trans hopw.symm, hsel.trans hselOf, hsid.trans hsidOf, hrsv.trans hrsvw.symm⟩

/-! ## The reserved opcodes (R312) -/

/-- No row of the opcode map stands in a reserved range. -/
theorem opNat_not_reserved (op : Op) : ¬(opNat op = 0x07 ∨ (0x0B ≤ opNat op ∧ opNat op ≤ 0x0F) ∨
    (0x13 ≤ opNat op ∧ opNat op ≤ 0x17) ∨ 0x1C ≤ opNat op) := by
  cases op <;> decide

theorem decode_of_reserved {w : W32} (h : opField w = 0x07 ∨ (0x0B ≤ opField w ∧ opField w ≤ 0x0F) ∨
    (0x13 ≤ opField w ∧ opField w ≤ 0x17) ∨ 0x1C ≤ opField w) : decode w = .error .badOpcode := by
  rw [decode_eq]
  cases hop : opOfNat (opField w) with
  | none => rfl
  | some op => exact absurd (opOfNat_eq_some_iff.1 hop ▸ h) (opNat_not_reserved op)

end Sys2Proof

namespace Sys2Proof.Proofs

open Sys2Proof.Machine

/-- Settles O1: the fields of the word are the command's row and numbers, which make the command again. -/
theorem decodeOfEncode : Obligations.DecodeOfEncode := fun _ h => decode_encode h

/-- Settles O2: the decoder answers well-formed commands, and a word is determined by its four fields. -/
theorem encodeOfDecode : Obligations.EncodeOfDecode := fun _ _ h => ⟨wf_of_decode h, encode_of_decode h⟩

/-- Settles O3: matching and decoding both ask for the row's opcode and for zero in the must-be-zero fields. -/
theorem rowMatch : Obligations.RowMatch := by
  refine ⟨fun op => ⟨?_, rfl⟩, fun op w => and_rowMask_eq_rowMatch_iff.trans exists_decode_of_row_iff.symm⟩
  have hlt := opNat_lt op
  exact Nat.mod_eq_of_lt (by omega)

/-- Settles O4: a reserved opcode has no row, so the decoder refuses the word; the one word of NOP is the one it encodes to. -/
theorem reservedOpcodes : Obligations.ReservedOpcodes := by
  refine ⟨fun s h => ?_, fun w => ⟨fun h => (encode_of_decode h).symm, ?_⟩⟩
  · rw [runCommand_of_decode_error (decode_of_reserved h)]
    exact completesKeeping_complete s .badOpcode {} (by decide)
  · rintro rfl
    exact decode_encode (i := .nop) rfl

/-- Settles O5: the fields of the assembled word do not overlap, so its value is their sum; the examples are evaluated. -/
theorem assembledWords : Obligations.AssembledWords :=
  ⟨fun _ h => encode_toNat h, rfl, rfl, rfl, rfl, rfl, rfl, rfl, rfl, rfl⟩

end Sys2Proof.Proofs
end

section
/-! SUPPORT. The bit stream of a byte string (R404, R405): its values split at every position, and the symbols of an encoding are the
values of its successive pieces. -/

namespace Sys2Proof.Machine

open Sys2Proof.Safety

/-! ## The stream and its values -/

theorem streamValue_lt (b : Bytes) (j k : Nat) : streamValue b j k < 2 ^ k := by
  induction k with
  | zero => exact Nat.one_pos
  | succ k ih =>
    have hbit : streamBit b (j + k) < 2 := Bool.toNat_lt _
    rw [streamValue, Nat.pow_succ]
    omega

/-- A piece of the stream is two adjacent pieces, the first one more significant. -/
theorem streamValue_add (b : Bytes) (j m k : Nat) :
    streamValue b j (m + k) = streamValue b j m * 2 ^ k + streamValue b (j + m) k := by
  induction k with
  | zero => rw [Nat.add_zero, streamValue, Nat.pow_zero, Nat.mul_one, Nat.add_zero]
  | succ k ih =>
    rw [← Nat.add_assoc, streamValue, ih, streamValue, Nat.pow_succ', ← Nat.add_assoc j, Nat.mul_add, Nat.add_assoc,
      Nat.mul_left_comm 2]

/-- The `k` bits from position `j`, cut out of the first bits of the stream. -/
theorem streamValue_div_mod (b : Bytes) (j k d : Nat) :
    streamValue b 0 (j + k + d) / 2 ^ d % 2 ^ k = streamValue b j k := by
  have hd := streamValue_lt b (0 + (j + k)) d
  have hk := streamValue_lt b j k
  rw [streamValue_add, Nat.mul_comm, Nat.mul_add_div (Nat.two_pow_pos d), Nat.div_eq_of_lt hd, Nat.add_zero, streamValue_add,
    Nat.zero_add, Nat.mul_comm, Nat.mul_add_mod, Nat.mod_eq_of_lt hk]

/-- Pieces with the same bits have the same value. -/
theorem streamValue_congr {b c : Bytes} {j j' k : Nat} (h : ∀ i < k, streamBit b (j + i) = streamBit c (j' + i)) :
    streamValue b j k = streamValue c j' k := by
  induction k with
  | zero => rfl
  | succ k ih => rw [streamValue, streamValue, ih fun i hi => h i (by omega), h k (Nat.lt_succ_self k)]

/-- Beyond the string the stream is zero (R405). -/
theorem streamValue_beyond {b : Bytes} {j : Nat} (h : 8 * b.length ≤ j) (k : Nat) : streamValue b j k = 0 := by
  induction k with
  | zero => rfl
  | succ k ih =>
    have hbit : streamBit b (j + k) = 0 := by
      rw [streamBit, List.getD_eq_getElem?_getD, List.getElem?_eq_none (by omega), Option.getD_none]
      exact congrArg Bool.toNat BitVec.getLsbD_zero
    rw [streamValue, ih, hbit]

/-- The bits of a byte, most significant first (R404). -/
theorem streamBit_byte (x : Byte) {j : Nat} (h : j < 8) : streamBit [x] j = x.toNat / 2 ^ (7 - j) % 2 := by
  rw [streamBit, Nat.div_eq_of_lt h, Nat.mod_eq_of_lt h, ← Nat.toNat_testBit]; rfl

/-- The first bits of a byte are its number without the low bits. -/
theorem streamValue_byte (x : Byte) {k : Nat} (h : k ≤ 8) : streamValue [x] 0 k = x.toNat / 2 ^ (8 - k) := by
  induction k with
  | zero => exact (Nat.div_eq_of_lt x.isLt).symm
  | succ k ih =>
    rw [streamValue, ih (by omega), Nat.zero_add, streamBit_byte x h, show 8 - k = 7 - k + 1 by omega, Nat.pow_succ,
      ← Nat.div_div_eq_div_mul, Nat.div_add_mod, Nat.add_sub_add_right 7 1 k]

theorem streamBit_append_left {b : Bytes} {j : Nat} (h : j < 8 * b.length) (c : Bytes) :
    streamBit (b ++ c) j = streamBit b j := by
  rw [streamBit, streamBit, List.getD_eq_getElem?_getD, List.getElem?_append_left (by omega), ← List.getD_eq_getElem?_getD]

theorem streamBit_append_right (b c : Bytes) (j : Nat) : streamBit (b ++ c) (8 * b.length + j) = streamBit c j := by
  rw [streamBit, streamBit, List.getD_eq_getElem?_getD, List.getElem?_append_right (by omega), ← List.getD_eq_getElem?_getD,
    Nat.mul_add_div (by decide), Nat.add_sub_cancel_left, Nat.mul_add_mod]

theorem beNat_concat (b : Bytes) (x : Byte) : beNat (b ++ [x]) = beNat b * 2 ^ 8 + x.toNat := by
  rw [beNat, List.foldl_append]; rfl

/-- Induction over a list that grows at its end, as a big-endian number grows. -/
theorem concat_induction {α : Type} {P : List α → Prop} (nil : P []) (concat : ∀ l x, P l → P (l ++ [x])) (l : List α) :
    P l := by
  have hreverse : ∀ r : List α, P r.reverse := fun r => by
    induction r with
    | nil => exact nil
    | cons x r ih => exact List.reverse_cons ▸ concat _ x ih
  exact List.reverse_reverse l ▸ hreverse l.reverse

/-- The whole stream of a string is its big-endian number. -/
theorem streamValue_eq_beNat (b : Bytes) : streamValue b 0 (8 * b.length) = beNat b := by
  induction b using concat_induction with
  | nil => rfl
  | concat b x ih =>
    have hinit : streamValue (b ++ [x]) 0 (8 * b.length) = streamValue b 0 (8 * b.length) :=
      streamValue_congr fun i hi => streamBit_append_left (by omega) [x]
    have hlast : streamValue (b ++ [x]) (8 * b.length) 8 = streamValue [x] 0 8 :=
      streamValue_congr fun i _ => by rw [streamBit_append_right, Nat.zero_add]
    rw [List.length_append, List.length_singleton, Nat.mul_succ, streamValue_add, Nat.zero_add, hinit, hlast, ih,
      streamValue_byte x (Nat.le_refl 8), beNat_concat, Nat.sub_self, Nat.pow_zero, Nat.div_one]

/-- The stream carried on past the end of its string: the string's number with zeros below it (R405). -/
theorem streamValue_padded (b : Bytes) (d : Nat) : streamValue b 0 (8 * b.length + d) = beNat b * 2 ^ d := by
  rw [streamValue_add, streamValue_eq_beNat, streamValue_beyond (by omega), Nat.add_zero]

/-! ## The symbols of an encoding -/

theorem symBits_lt (e : Enc) : symBits e < 8 := by cases e <;> decide

/-- The symbols cover the stream, and the last one is not wholly beyond it (R405). -/
theorem symCount_bounds (e : Enc) (n : Nat) : n ≤ symCount e n * symBits e ∧ symCount e n * symBits e < n + symBits e := by
  cases e <;> simp only [symCount, symBits] <;> omega

/-- The symbol of a value (R401). -/
def symbolOf (e : Enc) (v : Nat) : Byte := (alphabet e).getD v 0

/-- The values of the symbols of an encoding: the successive pieces of the stream (R404, R405). -/
def symbolValues (e : Enc) (b : Bytes) : List Nat :=
  (List.range (symCount e (8 * b.length))).map fun i => streamValue b (i * symBits e) (symBits e)

@[simp] theorem length_symbolValues (e : Enc) (b : Bytes) : (symbolValues e b).length = symCount e (8 * b.length) := by
  rw [symbolValues, List.length_map, List.length_range]

theorem symbolValues_lt {e : Enc} {b : Bytes} {v : Nat} (h : v ∈ symbolValues e b) : v < 2 ^ symBits e := by
  obtain ⟨i, -, rfl⟩ := List.mem_map.1 h
  exact streamValue_lt b _ _

theorem textOf_eq (e : Enc) (vs : List Nat) :
    textOf e vs = vs.map (symbolOf e) ++ List.replicate (padCount e vs.length) padSymbol := rfl

/-- An encoding is the text of its symbol values (R404 to R407). -/
theorem encodeText_eq_textOf (e : Enc) (b : Bytes) : encodeText e b = textOf e (symbolValues e b) := by
  obtain ⟨hle, -⟩ := symCount_bounds e (8 * b.length)
  have hstream : beNat b <<< (symCount e (8 * b.length) * symBits e - 8 * b.length) =
      streamValue b 0 (symCount e (8 * b.length) * symBits e) := by
    rw [Nat.shiftLeft_eq, ← streamValue_padded, Nat.add_sub_of_le hle]
  have hsymbols : ∀ i < symCount e (8 * b.length),
      streamValue b 0 (symCount e (8 * b.length) * symBits e) >>> (symBits e * (symCount e (8 * b.length) - 1 - i))
        % 2 ^ symBits e = streamValue b (i * symBits e) (symBits e) := fun i hi => by
    obtain ⟨d, hd⟩ := Nat.exists_eq_add_of_lt hi
    have hsplit : (i + d + 1) * symBits e = i * symBits e + symBits e + symBits e * d := by
      rw [Nat.add_right_comm, Nat.add_mul, Nat.succ_mul, Nat.mul_comm d]
    rw [hd, show i + d + 1 - 1 - i = d by omega, hsplit, Nat.shiftRight_eq_div_pow, streamValue_div_mod]
  rw [textOf_eq, length_symbolValues, encodeText, symbolValues, List.map_map, hstream]
  exact congrArg (· ++ _) (List.map_congr_left fun i hi => congrArg (symbolOf e) (hsymbols i (List.mem_range.1 hi)))

theorem length_alphabet (e : Enc) : (alphabet e).length = 2 ^ symBits e := by cases e <;> rfl

theorem getElem?_alphabet {e : Enc} {v : Nat} (h : v < 2 ^ symBits e) : (alphabet e)[v]? = some (symbolOf e v) := by
  have hlt : v < (alphabet e).length := length_alphabet e ▸ h
  rw [symbolOf, List.getD_eq_getElem?_getD, List.getElem?_eq_getElem hlt, Option.getD_some]

end Sys2Proof.Machine

namespace Sys2Proof.Proofs

open Sys2Proof.Machine Sys2Proof.Safety

/-- Settles O31: an encoding is the text of its symbol values, and each value names a symbol of the alphabet. -/
theorem encodeBitStream : Obligations.EncodeBitStream := by
  intro e b i hi
  have hi' : i < symCount e (8 * b.length) := hi
  have hsyms : i < ((symbolValues e b).map (symbolOf e)).length := by rwa [List.length_map, length_symbolValues]
  rw [encodeText_eq_textOf, textOf_eq, List.getElem?_append_left hsyms, getElem?_alphabet (streamValue_lt b _ _), symbolValues,
    List.map_map, List.getElem?_map, List.getElem?_range hi']
  rfl

end Sys2Proof.Proofs
end

section
/-! SUPPORT. The decoder by the number it reads: its output and its pending bits are always the big-endian number of the symbols so far
(R410), and such a number is that of one list of digits only. From this follow where decoding ends (R411 to R413) and the round
trip (R414). -/

namespace Sys2Proof.Machine

open Sys2Proof.Safety

/-! ## Big-endian numbers -/

/-- The number of the digits `ds` in base `B`, most significant first. -/
def bigEndian (B : Nat) (ds : List Nat) : Nat := ds.foldl (fun v d => v * B + d) 0

theorem bigEndian_concat (B : Nat) (ds : List Nat) (d : Nat) : bigEndian B (ds ++ [d]) = bigEndian B ds * B + d := by
  rw [bigEndian, List.foldl_append]; rfl

/-- A number of so many digits has them in one way only. -/
theorem bigEndian_inj {B : Nat} {ds : List Nat} : ∀ {es : List Nat}, ds.length = es.length → (∀ d ∈ ds, d < B) →
    (∀ d ∈ es, d < B) → bigEndian B ds = bigEndian B es → ds = es := by
  induction ds using concat_induction with
  | nil => exact fun hlen _ _ _ => (List.length_eq_zero_iff.1 hlen.symm).symm
  | concat ds d ih =>
    intro es
    induction es using concat_induction with
    | nil => exact fun hlen _ _ _ => List.length_eq_zero_iff.1 hlen
    | concat es x _ =>
      intro hlen hdigits hdigits' h
      obtain ⟨hds, hd⟩ := List.forall_mem_append.1 hdigits
      obtain ⟨hes, hx⟩ := List.forall_mem_append.1 hdigits'
      replace hd : d < B := hd d (List.mem_singleton_self d)
      replace hx : x < B := hx x (List.mem_singleton_self x)
      rw [List.length_append, List.length_append, List.length_singleton, List.length_singleton] at hlen
      rw [bigEndian_concat, bigEndian_concat] at h
      have hlast : d = x := by
        have hmod := congrArg (· % B) h
        rwa [Nat.mul_add_mod_self_right, Nat.mul_add_mod_self_right, Nat.mod_eq_of_lt hd, Nat.mod_eq_of_lt hx] at hmod
      subst hlast
      have hinit := Nat.eq_of_mul_eq_mul_right (Nat.zero_lt_of_lt hd) (Nat.add_right_cancel h)
      rw [ih (Nat.add_right_cancel hlen) hds hes hinit]

theorem beNat_eq_bigEndian (b : Bytes) : beNat b = bigEndian (2 ^ 8) (b.map BitVec.toNat) := by
  unfold beNat bigEndian
  exact List.foldl_map.symm

theorem beNat_inj {b c : Bytes} (hlen : b.length = c.length) (h : beNat b = beNat c) : b = c := by
  rw [beNat_eq_bigEndian, beNat_eq_bigEndian] at h
  have hbytes : ∀ a : Bytes, ∀ d ∈ a.map BitVec.toNat, d < 2 ^ 8 := by
    intro a d hd
    obtain ⟨x, -, rfl⟩ := List.mem_map.1 hd
    exact x.isLt
  have hdigits := bigEndian_inj (by rwa [List.length_map, List.length_map]) (hbytes b) (hbytes c) h
  exact (List.map_inj_right fun _ _ => BitVec.eq_of_toNat_eq).1 hdigits

/-- Successive pieces of the stream, as digits, have the number of the bits they cover. -/
theorem bigEndian_stream (b : Bytes) (k n : Nat) :
    bigEndian (2 ^ k) ((List.range n).map fun i => streamValue b (i * k) k) = streamValue b 0 (n * k) := by
  induction n with
  | zero => rw [Nat.zero_mul]; rfl
  | succ n ih =>
    rw [List.range_succ, List.map_append, List.map_singleton, bigEndian_concat, ih, Nat.succ_mul, streamValue_add, Nat.zero_add]

/-- The symbols of an encoding have the number of its input, with zeros below it up to whole symbols (R405). -/
theorem bigEndian_symbolValues (e : Enc) (b : Bytes) : bigEndian (2 ^ symBits e) (symbolValues e b) =
    beNat b * 2 ^ (symCount e (8 * b.length) * symBits e - 8 * b.length) := by
  obtain ⟨hle, -⟩ := symCount_bounds e (8 * b.length)
  rw [symbolValues, bigEndian_stream, ← streamValue_padded, Nat.add_sub_of_le hle]

theorem clearLast_concat (d : Nat) (vs : List Nat) (v : Nat) : clearLast d (vs ++ [v]) = vs ++ [v / 2 ^ d * 2 ^ d] := by
  induction vs with
  | nil => rfl
  | cons w ws ih =>
    cases ws with
    | nil => rfl
    | cons x ws => exact congrArg (w :: ·) ih

@[simp] theorem length_clearLast (d : Nat) (vs : List Nat) : (clearLast d vs).length = vs.length := by
  induction vs using concat_induction with
  | nil => rfl
  | concat vs v _ => rw [clearLast_concat, List.length_append, List.length_append]; rfl

theorem clearLast_lt {B d : Nat} {vs : List Nat} (h : ∀ v ∈ vs, v < B) : ∀ v ∈ clearLast d vs, v < B := by
  induction vs using concat_induction with
  | nil => exact h
  | concat vs v _ =>
    obtain ⟨hvs, hv⟩ := List.forall_mem_append.1 h
    rw [clearLast_concat]
    refine List.forall_mem_append.2 ⟨hvs, fun w hw => ?_⟩
    rw [List.mem_singleton.1 hw]
    exact Nat.lt_of_le_of_lt (Nat.div_mul_le_self v _) (hv v (List.mem_singleton_self v))

/-- Clearing low bits of the last digit clears them in the number. -/
theorem bigEndian_clearLast {k d : Nat} (h : d ≤ k) (vs : List Nat) :
    bigEndian (2 ^ k) (clearLast d vs) = bigEndian (2 ^ k) vs / 2 ^ d * 2 ^ d := by
  induction vs using concat_induction with
  | nil => exact (Nat.div_mul_cancel (Nat.dvd_zero _)).symm
  | concat vs v _ =>
    obtain ⟨c, rfl⟩ := Nat.exists_eq_add_of_le h
    rw [clearLast_concat, bigEndian_concat, bigEndian_concat, Nat.pow_add, Nat.mul_left_comm _ (2 ^ d),
      Nat.mul_add_div (Nat.two_pow_pos d), Nat.add_mul, Nat.mul_comm (2 ^ d)]

/-! ## The loop of R410 -/

/-- The decoder after `n` bits of number `v`: the bytes of `out` and the `nb` pending bits of `acc`, fewer than a byte. -/
structure HasRead (n v : Nat) (out : Bytes) (acc nb : Nat) : Prop where
  pending_lt : nb < 8
  acc_lt : acc < 2 ^ nb
  bits : 8 * out.length + nb = n
  number : beNat out * 2 ^ nb + acc = v

/-- A symbol of the alphabet has its own value (R402, R403). -/
theorem lut_symbolOf {e : Enc} {v : Nat} (h : v < 2 ^ symBits e) : lut e (symbolOf e v) = .val v := by
  have hnodup : (alphabet e).Nodup := by cases e <;> decide
  obtain ⟨hlt, hget⟩ := List.getElem?_eq_some_iff.1 (getElem?_alphabet h)
  have hidx : (alphabet e).idxOf? (symbolOf e v) = some v :=
    List.idxOf?_eq_some_iff.2 ⟨hlt, hget, fun j hj =>
      hget ▸ List.pairwise_iff_getElem.1 hnodup j v (Nat.lt_trans hj hlt) hlt hj⟩
  rw [lut, hidx]

@[simp] theorem lut_padSymbol (e : Enc) : lut e padSymbol = .stop := by cases e <;> decide

/-- A character that is neither a symbol nor padding (R412). -/
theorem lut_foreign {e : Enc} {x : Byte} (hx : x ∉ alphabet e) (hpad : x ≠ padSymbol) : lut e x = .invalid := by
  rw [lut, List.idxOf?_eq_none_iff.2 hx]
  exact if_neg hpad

/-- Eight pending bits or more give a byte of output. -/
theorem hasRead_emit (out : Bytes) {acc nb : Nat} (hacc : acc < 2 ^ nb) (h8 : 8 ≤ nb) (h16 : nb < 16) :
    HasRead (8 * out.length + nb) (beNat out * 2 ^ nb + acc) (out ++ [BitVec.ofNat 8 (acc >>> (nb - 8))])
      (acc % 2 ^ (nb - 8)) (nb - 8) := by
  obtain ⟨r, rfl⟩ := Nat.exists_eq_add_of_le h8
  have hbyte : acc / 2 ^ r < 2 ^ 8 := Nat.div_lt_of_lt_mul (by rwa [← Nat.pow_add, Nat.add_comm])
  rw [Nat.add_sub_cancel_left, Nat.shiftRight_eq_div_pow]
  refine ⟨by omega, Nat.mod_lt _ (Nat.two_pow_pos r), ?_, ?_⟩
  · rw [List.length_append, List.length_singleton]; omega
  · rw [beNat_concat, BitVec.toNat_ofNat, Nat.mod_eq_of_lt hbyte, Nat.add_mul, Nat.add_assoc, Nat.div_add_mod', Nat.mul_assoc,
      ← Nat.pow_add]

/-- A symbol adds its bits to the number read. -/
theorem decodeFrom_symbol {e : Enc} {v : Nat} (hv : v < 2 ^ symBits e) {n N : Nat} {out : Bytes} {acc nb : Nat}
    (h : HasRead n N out acc nb) :
    ∃ out' acc' nb', HasRead (n + symBits e) (N * 2 ^ symBits e + v) out' acc' nb' ∧
      ∀ t i, decodeFrom e (symbolOf e v :: t) i acc nb out = decodeFrom e t (i + 1) acc' nb' out' := by
  obtain ⟨hnb, hacc, rfl, rfl⟩ := h
  have hk := symBits_lt e
  have hor : acc <<< symBits e ||| v = acc * 2 ^ symBits e + v := by
    rw [← Nat.shiftLeft_add_eq_or_of_lt hv, Nat.shiftLeft_eq]
  have hlt : acc * 2 ^ symBits e + v < 2 ^ (nb + symBits e) :=
    calc acc * 2 ^ symBits e + v < (acc + 1) * 2 ^ symBits e := by rw [Nat.succ_mul]; omega
      _ ≤ 2 ^ nb * 2 ^ symBits e := Nat.mul_le_mul_right _ hacc
      _ = 2 ^ (nb + symBits e) := (Nat.pow_add 2 nb _).symm
  have hnum : (beNat out * 2 ^ nb + acc) * 2 ^ symBits e + v =
      beNat out * 2 ^ (nb + symBits e) + (acc * 2 ^ symBits e + v) := by
    rw [Nat.pow_add, Nat.add_mul, Nat.mul_assoc, Nat.add_assoc]
  rw [hnum, Nat.add_assoc]
  by_cases hbyte : 8 ≤ nb + symBits e
  · refine ⟨_, _, _, hasRead_emit out hlt hbyte (by omega), fun t i => ?_⟩
    simp only [decodeFrom, lut_symbolOf hv, hor, if_pos hbyte]
  · refine ⟨out, _, _, ⟨by omega, hlt, rfl, rfl⟩, fun t i => ?_⟩
    simp only [decodeFrom, lut_symbolOf hv, hor, if_neg hbyte]

/-- Symbols add their bits to the number read, whatever follows them. -/
theorem decodeFrom_symbols {e : Enc} (vs : List Nat) (hvs : ∀ v ∈ vs, v < 2 ^ symBits e) :
    ∀ {n N : Nat} {out : Bytes} {acc nb : Nat}, HasRead n N out acc nb →
      ∃ out' acc' nb', HasRead (n + vs.length * symBits e) (vs.foldl (fun N v => N * 2 ^ symBits e + v) N) out' acc' nb' ∧
        ∀ t i, decodeFrom e (vs.map (symbolOf e) ++ t) i acc nb out = decodeFrom e t (i + vs.length) acc' nb' out' := by
  induction vs with
  | nil =>
    intro n N out acc nb h
    exact ⟨out, acc, nb, by rwa [List.length_nil, Nat.zero_mul, Nat.add_zero], fun t i => rfl⟩
  | cons v vs ih =>
    intro n N out acc nb h
    obtain ⟨hv, hvs⟩ := List.forall_mem_cons.1 hvs
    obtain ⟨out₁, acc₁, nb₁, h₁, hstep⟩ := decodeFrom_symbol hv h
    obtain ⟨out₂, acc₂, nb₂, h₂, hrest⟩ := ih hvs h₁
    refine ⟨out₂, acc₂, nb₂, ?_, fun t i => ?_⟩
    · rwa [List.length_cons, Nat.succ_mul, Nat.add_comm (_ * _), ← Nat.add_assoc]
    · rw [List.map_cons, List.cons_append, hstep, hrest, List.length_cons, Nat.add_comm vs.length, Nat.add_assoc]

/-- Decoding reads the leading symbols of a text, whatever follows them, as the big-endian number of their values (R410). -/
theorem decodeText_symbols {e : Enc} {vs : List Nat} (hvs : ∀ v ∈ vs, v < 2 ^ symBits e) :
    ∃ out acc nb, HasRead (vs.length * symBits e) (bigEndian (2 ^ symBits e) vs) out acc nb ∧
      ∀ t, decodeText e (vs.map (symbolOf e) ++ t) = decodeFrom e t vs.length acc nb out := by
  obtain ⟨out, acc, nb, h, hdec⟩ := decodeFrom_symbols vs hvs (n := 0) (N := 0) (out := []) (acc := 0) (nb := 0)
    ⟨by decide, by decide, rfl, rfl⟩
  rw [Nat.zero_add] at h
  exact ⟨out, acc, nb, h, fun t => by rw [decodeText, hdec, Nat.zero_add]⟩

/-! ## Where decoding ends (R411 to R413) -/

@[simp] theorem decodeFrom_nil (e : Enc) (i acc nb : Nat) (out : Bytes) : decodeFrom e [] i acc nb out = .ok out i := rfl

@[simp] theorem decodeFrom_padSymbol (e : Enc) (t : Bytes) (i acc nb : Nat) (out : Bytes) :
    decodeFrom e (padSymbol :: t) i acc nb out = .ok out i := by
  simp only [decodeFrom, lut_padSymbol]

theorem decodeFrom_foreign {e : Enc} {x : Byte} (hx : x ∉ alphabet e) (hpad : x ≠ padSymbol) (t : Bytes) (i acc nb : Nat)
    (out : Bytes) : decodeFrom e (x :: t) i acc nb out = .parse i := by
  simp only [decodeFrom, lut_foreign hx hpad]

@[simp] theorem decodeFrom_padding (e : Enc) (p i acc nb : Nat) (out : Bytes) :
    decodeFrom e (List.replicate p padSymbol) i acc nb out = .ok out i := by
  cases p with
  | zero => exact decodeFrom_nil e i acc nb out
  | succ p => exact decodeFrom_padSymbol e _ i acc nb out

/-- A string of symbols is made of their values. -/
theorem exists_symbols {e : Enc} {u : Bytes} (hu : ∀ c ∈ u, c ∈ alphabet e) :
    ∃ vs : List Nat, u = vs.map (symbolOf e) ∧ vs.length = u.length ∧ ∀ v ∈ vs, v < 2 ^ symBits e := by
  refine ⟨u.map ((alphabet e).idxOf ·), ?_, List.length_map _, fun v hv => ?_⟩
  · have hsymbol : ∀ c ∈ u, c = symbolOf e ((alphabet e).idxOf c) := fun c hc => by
      have hlt := List.idxOf_lt_length_of_mem (hu c hc)
      have hget := getElem?_alphabet (length_alphabet e ▸ hlt)
      rw [List.getElem?_eq_getElem hlt, List.getElem_idxOf] at hget
      exact Option.some.inj hget
    rw [List.map_map]
    exact (List.map_id u).symm.trans (List.map_congr_left hsymbol)
  · obtain ⟨c, hc, rfl⟩ := List.mem_map.1 hv
    exact length_alphabet e ▸ List.idxOf_lt_length_of_mem (hu c hc)

/-! ## The round trip (R414) -/

/-- A text of whole bytes and fewer than a symbol's leftover bits decodes to the bytes of its number. -/
theorem decodeText_textOf {e : Enc} {m : Nat} {vs : List Nat} (h : ValidSymbols e m vs) :
    ∃ out, decodeText e (textOf e vs) = .ok out vs.length ∧ out.length = m ∧
      beNat out = bigEndian (2 ^ symBits e) vs / 2 ^ (vs.length * symBits e - 8 * m) := by
  obtain ⟨hlen, hvs⟩ := h
  obtain ⟨out, acc, nb, ⟨hnb, hacc, hbits, hnum⟩, hdec⟩ := decodeText_symbols hvs
  obtain ⟨hle, hlt⟩ := symCount_bounds e (8 * m)
  have hk := symBits_lt e
  rw [← hlen] at hle hlt
  refine ⟨out, by rw [textOf_eq, hdec, decodeFrom_padding], by omega, ?_⟩
  rw [← hnum, show vs.length * symBits e - 8 * m = nb by omega, Nat.mul_comm, Nat.mul_add_div (Nat.two_pow_pos nb),
    Nat.div_eq_of_lt hacc, Nat.add_zero]

theorem validSymbols_symbolValues (e : Enc) (b : Bytes) : ValidSymbols e b.length (symbolValues e b) :=
  ⟨length_symbolValues e b, fun _ => symbolValues_lt⟩

end Sys2Proof.Machine

namespace Sys2Proof.Proofs

open Sys2Proof.Machine Sys2Proof.Safety

/-- Settles O33: the symbols of an encoding have the number of its input, which decoding gives back once the zeros below it are
discarded. -/
theorem decodeOfEncodeText : Obligations.DecodeOfEncodeText := by
  intro e b
  obtain ⟨out, hdec, hlen, hnum⟩ := decodeText_textOf (validSymbols_symbolValues e b)
  rw [bigEndian_symbolValues, length_symbolValues, Nat.mul_div_cancel _ (Nat.two_pow_pos _)] at hnum
  rw [encodeText_eq_textOf, hdec, beNat_inj hlen hnum, length_symbolValues]

/-- Settles O34: the symbols of the decoded bytes and the cleared symbols of the text are digits of the same number. -/
theorem canonicalText : Obligations.CanonicalText := by
  intro e m vs h
  obtain ⟨out, hdec, hlen, hnum⟩ := decodeText_textOf h
  obtain ⟨hcount, hvs⟩ := h
  obtain ⟨hle, hlt⟩ := symCount_bounds e (8 * m)
  refine ⟨out, hdec, hlen, ?_⟩
  have hdigits : symbolValues e out = clearLast (vs.length * symBits e - 8 * m) vs := by
    refine bigEndian_inj ?_ (fun _ => symbolValues_lt) (clearLast_lt hvs) ?_
    · rw [length_symbolValues, length_clearLast, hlen, hcount]
    · rw [bigEndian_symbolValues, bigEndian_clearLast (by rw [hcount]; omega), hnum, hlen, hcount]
  rw [encodeText_eq_textOf, hdigits]

/-- Settles O35: after symbols, decoding ends with their bytes at padding and at the end of the text, and fails at a foreign
character. -/
theorem decodeStops : Obligations.DecodeStops := by
  refine ⟨fun e u v hu => ?_, fun e u v x hu hx hpad => ?_, by decide⟩
  · obtain ⟨vs, rfl, hlen, hvs⟩ := exists_symbols hu
    obtain ⟨out, acc, nb, -, hdec⟩ := decodeText_symbols hvs
    refine ⟨out, ?_, ?_⟩
    · rw [← List.append_nil (vs.map _), hdec, decodeFrom_nil, List.append_nil, hlen]
    · rw [hdec, decodeFrom_padSymbol, hlen]
  · obtain ⟨vs, rfl, hlen, hvs⟩ := exists_symbols hu
    obtain ⟨out, acc, nb, -, hdec⟩ := decodeText_symbols hvs
    rw [hdec, decodeFrom_foreign hx hpad, hlen]

end Sys2Proof.Proofs
end

section
/-! SUPPORT. Detection of an encoding: the acceptance test as a proposition, and the order of the search (R415). -/

namespace Sys2Proof.Machine

/-- The test of R415: no character but symbols and padding, and at least one byte decoded. -/
theorem encAccepts_iff {e : Enc} {t : Bytes} : encAccepts e t = true ↔
    (∀ c ∈ t, c ∈ alphabet e ∨ c = padSymbol) ∧ ∃ out used, decodeText e t = .ok out used ∧ out ≠ [] := by
  cases hdec : decodeText e t <;> simp [encAccepts, hdec]

theorem encId_lt (e : Enc) : encId e < allEncs.length := by cases e <;> decide

theorem getElem_allEncs_encId (e : Enc) : allEncs[encId e]'(encId_lt e) = e := by cases e <;> rfl

theorem encId_getElem_allEncs : ∀ i (h : i < allEncs.length), encId allEncs[i] = i := by decide

theorem mem_allEncs (e : Enc) : e ∈ allEncs := List.mem_iff_getElem.2 ⟨_, encId_lt e, getElem_allEncs_encId e⟩

/-- Detection answers the accepting encoding of the lowest identifier. -/
theorem detectEnc_eq_some_iff {t : Bytes} {e : Enc} : detectEnc t = some e ↔
    encAccepts e t = true ∧ ∀ e', encId e' < encId e → encAccepts e' t ≠ true := by
  rw [detectEnc, List.find?_eq_some_iff_getElem]
  refine and_congr_right fun _ => ⟨?_, fun h => ?_⟩
  · rintro ⟨i, hi, rfl, hbefore⟩ e' he'
    rw [encId_getElem_allEncs] at he'
    simpa [getElem_allEncs_encId] using hbefore (encId e') he'
  · refine ⟨encId e, encId_lt e, getElem_allEncs_encId e, fun j hj => ?_⟩
    have hlt := Nat.lt_trans hj (encId_lt e)
    simpa using h allEncs[j] (by rwa [encId_getElem_allEncs j hlt])

theorem detectEnc_eq_none_iff {t : Bytes} : detectEnc t = none ↔ ∀ e, encAccepts e t ≠ true := by
  rw [detectEnc, List.find?_eq_none]
  exact ⟨fun h e => h e (mem_allEncs e), fun h e _ => h e⟩

end Sys2Proof.Machine

namespace Sys2Proof.Proofs

open Sys2Proof.Machine

/-- Settles O36: detection is the first encoding in identifier order that meets the test of R415. -/
theorem detectFirstEncoding : Obligations.DetectFirstEncoding := by
  intro t
  split
  next e h =>
    obtain ⟨haccepts, hbefore⟩ := detectEnc_eq_some_iff.1 h
    exact ⟨encAccepts_iff.1 haccepts, fun e' he' => mt encAccepts_iff.2 (hbefore e' he')⟩
  next h => exact fun e => mt encAccepts_iff.2 (detectEnc_eq_none_iff.1 h e)

end Sys2Proof.Proofs
end

section
/-! SUPPORT. The codec's commands (R420 to R424): the check of the must-be-zero fields, which every command makes before its meaning, and
what each command does once its operand is admitted. -/

namespace Sys2Proof.Machine

open Sys2Proof.Safety

/-- Step 2 of R1410, for every opcode: a word whose must-be-zero fields are not zero completes with BAD_FIELD (R313). -/
theorem fieldsChecked (op : Op) : FieldsChecked op := by
  intro s hop hbad
  have hfields : ¬fieldsOk op s.pcmd = true := by
    rw [fieldsOk_iff]
    rintro ⟨hsel, hsid, hrsv⟩
    rcases hbad with h | ⟨hunused, h⟩ | ⟨hunused, h⟩
    · exact h hrsv
    · exact h (hsel.resolve_left (by simp [hunused]))
    · exact h (hsid.resolve_left (by simp [hunused]))
  have hdec : Sys2Proof.decode s.pcmd = .error .badField := by
    simp [decode_eq, opOfNat_eq_some_iff.2 hop, hfields]
  rw [runCommand_of_decode_error hdec]
  exact completesKeeping_complete s .badField {} (by decide)

/-- A refusal leaves what R1404 says: the code, and no output. -/
theorem completesKeeping_raised (s : State) (c : Code) (info : Results) : CompletesKeeping (raised s c info) s c info [] :=
  completesKeeping_complete s c info (by decide)

/-- The range check of an operand (R303). -/
theorem not_operandOk_iff {s : State} {off len : W32} : (!operandOk s off len) = true ↔ RunsPast s off len := by
  simp [operandOk_eq]

theorem length_operand_le {s : State} (h : ¬RunsPast s s.arg1 s.arg0) : (operand s).length ≤ s.params.ibufSize :=
  length_operandBytes_le (by simpa using mt not_operandOk_iff.1 h) s.draws

/-- A number below 6 is an encoding's identifier (R131). -/
theorem exists_encId {enc : Nat} (h : ¬6 ≤ enc) : ∃ e, encId e = enc := by
  obtain ⟨e, he⟩ := Option.ne_none_iff_exists'.1 (mt encOf_eq_none.1 h)
  exact ⟨e, (encOf_eq_some he).symm⟩

/-! ## ENCODE (R420) -/

theorem exec_encode_badEnc {enc : Nat} (h : 6 ≤ enc) (s : State) : exec (.encode enc) s = raised s .badEnc := by
  rw [exec, execEncode, encOf_eq_none.2 h]

/-- ENCODE with an encoding: its two range checks in order, and its text. -/
theorem exec_encode_encId (e : Enc) (s : State) : exec (.encode (encId e)) s =
    if RunsPast s s.arg1 s.arg0 then raised s .badRange
    else if s.params.obufSize < (encodeText e (operand s)).length then raised s .badRange
    else .next (s.output (encodeText e (operand s))) := by
  rw [exec, execEncode, encOf_encId]
  exact ite_congr (propext not_operandOk_iff) (fun _ => rfl) fun _ => rfl

/-! ## DECODE (R422) -/

theorem exec_decode_badEnc {enc : Nat} (h : 6 ≤ enc) (s : State) : exec (.decode enc) s = raised s .badEnc := by
  rw [exec, execDecode, encOf_eq_none.2 h]

theorem exec_decode_badRange (e : Enc) {s : State} (h : RunsPast s s.arg1 s.arg0) :
    exec (.decode (encId e)) s = raised s .badRange := by
  rw [exec, execDecode, encOf_encId]
  exact if_pos (not_operandOk_iff.2 h)

theorem exec_decode_parse {e : Enc} {s : State} {pos : Nat} (h : ¬RunsPast s s.arg1 s.arg0)
    (hdec : decodeText e (operand s) = .parse pos) :
    exec (.decode (encId e)) s = raised s .parse { r1 := BitVec.ofNat 32 pos } := by
  rw [exec, execDecode, encOf_encId]
  refine (if_neg (mt not_operandOk_iff.1 h)).trans ?_
  rw [← operand, hdec]

theorem exec_decode_ok {e : Enc} {s : State} {out : Bytes} {used : Nat} (h : ¬RunsPast s s.arg1 s.arg0)
    (hdec : decodeText e (operand s) = .ok out used) : exec (.decode (encId e)) s =
      .next (s.complete .ok { r0 := BitVec.ofNat 32 out.length, r1 := BitVec.ofNat 32 used } out) := by
  rw [exec, execDecode, encOf_encId]
  refine (if_neg (mt not_operandOk_iff.1 h)).trans ?_
  rw [← operand, hdec]

/-! ## DETECT_ENC (R424) -/

/-- DETECT_ENC: its range check, and the answer of the search. -/
theorem exec_detectEnc (s : State) : exec .detectEnc s =
    if RunsPast s s.arg1 s.arg0 then raised s .badRange else .next (s.found ((detectEnc (operand s)).map encId)) := by
  rw [exec, execDetectEnc]
  exact ite_congr (propext not_operandOk_iff) (fun _ => rfl) fun _ => rfl

end Sys2Proof.Machine

namespace Sys2Proof.Proofs

open Sys2Proof.Machine Sys2Proof.Safety

/-- Settles O37: what passes the checks is encoded, and with the parameters of R9 every encoding fits OBUF. -/
theorem encodeEffect : Obligations.EncodeEffect := by
  refine ⟨fieldsChecked .encode, fun s enc hp => ?_⟩
  by_cases henc : 6 ≤ enc
  · rw [if_pos henc, exec_encode_badEnc henc]
    exact completesKeeping_raised s .badEnc {}
  obtain ⟨e, rfl⟩ := exists_encId henc
  rw [if_neg henc]
  by_cases hrange : RunsPast s s.arg1 s.arg0
  · rw [if_pos hrange, exec_encode_encId, if_pos hrange]
    exact completesKeeping_raised s .badRange {}
  · obtain ⟨-, -, -, hfits⟩ := encodeFits
    have hout := hfits s.params e (operand s) hp (length_operand_le hrange)
    have hlen : (encodeText e (operand s)).length < 2 ^ 16 := by
      obtain ⟨-, -, -, -, -, hmax⟩ := hp
      omega
    rw [if_neg hrange, exec_encode_encId, if_neg hrange, if_neg (Nat.not_lt.2 hout), State.output_eq]
    exact ⟨e, rfl, completesKeeping_complete s .ok _ hlen⟩

/-- Settles O38: what passes the checks is decoded, to at most as many bytes as the operand has. -/
theorem decodeEffect : Obligations.DecodeEffect := by
  refine ⟨fieldsChecked .decode, fun s enc hp => ?_⟩
  by_cases henc : 6 ≤ enc
  · rw [if_pos henc, exec_decode_badEnc henc]
    exact completesKeeping_raised s .badEnc {}
  obtain ⟨e, rfl⟩ := exists_encId henc
  rw [if_neg henc]
  by_cases hrange : RunsPast s s.arg1 s.arg0
  · rw [if_pos hrange, exec_decode_badRange e hrange]
    exact completesKeeping_raised s .badRange {}
  · rw [if_neg hrange]
    refine ⟨e, rfl, ?_⟩
    split
    next pos hdec => exact exec_decode_parse hrange hdec ▸ completesKeeping_raised s .parse _
    next out used hdec =>
      have hout : out.length < 2 ^ 16 := by
        have hle := Nat.le_trans (length_decodeText_le hdec) (length_operand_le hrange)
        obtain ⟨-, -, -, hmax, -⟩ := hp
        omega
      exact exec_decode_ok hrange hdec ▸ completesKeeping_complete s .ok _ hout

/-- Settles O39: the search answers with OK or with NOT_FOUND, and neither has output. -/
theorem detectEncEffect : Obligations.DetectEncEffect := by
  refine ⟨fieldsChecked .detectEnc, fun s => ?_⟩
  rw [exec_detectEnc]
  by_cases hrange : RunsPast s s.arg1 s.arg0
  · simp only [if_pos hrange]
    exact completesKeeping_raised s .badRange {}
  · simp only [if_neg hrange]
    cases detectEnc (operand s) with
    | some e => exact completesKeeping_complete s .ok _ (by decide)
    | none => exact completesKeeping_complete s .notFound _ (by decide)

end Sys2Proof.Proofs
end

section
/-! SUPPORT. The length of the padded tail (R504): the open block, the padding byte, the least number of zeros that fills the last block,
and the length field. -/

namespace Sys2Proof.Machine

theorem length_mdLenField {σ : Type} (a : MdAlg σ) (n : Nat) : (mdLenField a n).length = a.lenBytes := by
  unfold mdLenField
  split
  · exact length_toBeN _ _
  · exact length_toLeN _ _

theorem length_mdTail {σ : Type} (a : MdAlg σ) (c : MdCtx σ) :
    (mdTail a c).length = c.buf.length + 1 + mdZeros a c.n.toNat + a.lenBytes := by
  simp +arith [mdTail, length_mdLenField]

/-- The zeros of the padding depend on the open block only: they fill the block that it shares with the padding byte and the length
field, or the block after it where these three do not fit (R504). -/
theorem mdZeros_eq {σ : Type} {a : MdAlg σ} (hrow : a.lenBytes + 1 ≤ a.blockBytes) (n : Nat) :
    mdZeros a n =
      (if n % a.blockBytes + 1 + a.lenBytes ≤ a.blockBytes then a.blockBytes else 2 * a.blockBytes) -
        (n % a.blockBytes + 1 + a.lenBytes) := by
  have hopen : n % a.blockBytes < a.blockBytes := Nat.mod_lt n (by omega)
  have hused : (n + 1 + a.lenBytes) % a.blockBytes = (n % a.blockBytes + 1 + a.lenBytes) % a.blockBytes := by
    simp [Nat.add_assoc]
  rw [mdZeros, hused]
  generalize hk : n % a.blockBytes + 1 + a.lenBytes = k
  rcases Nat.lt_trichotomy k a.blockBytes with hlt | rfl | hgt
  · rw [if_pos (Nat.le_of_lt hlt), Nat.mod_eq_of_lt hlt, Nat.mod_eq_of_lt (by omega)]
  · simp
  · have hover : k % a.blockBytes = k - a.blockBytes := by
      rw [Nat.mod_eq_sub_mod (Nat.le_of_lt hgt), Nat.mod_eq_of_lt (by omega)]
    rw [if_neg (by omega), hover, Nat.mod_eq_of_lt (by omega)]
    omega

/-- The padded tail is one block where the open block leaves room for the padding byte and the length field, and two otherwise (R505). -/
theorem length_mdTail_eq_blocks {σ : Type} {a : MdAlg σ} {c : MdCtx σ} (hrow : a.lenBytes + 1 ≤ a.blockBytes)
    (hbuf : c.buf.length = c.n.toNat % a.blockBytes) :
    (mdTail a c).length =
      if c.buf.length ≤ a.blockBytes - a.lenBytes - 1 then a.blockBytes else 2 * a.blockBytes := by
  have hopen : c.n.toNat % a.blockBytes < a.blockBytes := Nat.mod_lt _ (by omega)
  rw [length_mdTail, mdZeros_eq hrow, ← hbuf]
  split <;> split <;> omega

/-- A one-block tail, told from the count of absorbed bytes: the form of the three cases of R505. -/
theorem length_mdTail_eq_block_iff {σ : Type} {a : MdAlg σ} {c : MdCtx σ} (hrow : a.lenBytes + 1 ≤ a.blockBytes)
    (hbuf : c.buf.length = c.n.toNat % a.blockBytes) :
    (mdTail a c).length = a.blockBytes ↔ c.n.toNat % a.blockBytes ≤ a.blockBytes - a.lenBytes - 1 := by
  rw [length_mdTail_eq_blocks hrow hbuf, hbuf]
  split <;> omega

end Sys2Proof.Machine

namespace Sys2Proof.Proofs

open Sys2Proof.Machine

/-- Settles O25: the zeros of R504 fill the block the length field ends in; the three cases are instances, with the sizes of R510. -/
theorem paddedTail : Obligations.PaddedTail := by
  refine ⟨fun σ a c => length_mdTail_eq_blocks, fun σ a c hbuf => ⟨fun hB hL => ?_, fun hB hL => ?_, fun hB hL => ?_⟩⟩
  all_goals simpa [hB, hL] using length_mdTail_eq_block_iff (by omega) hbuf

/-- Settles O26: Init and Absorb keep the shape of a context, and Final of such a context gives the length of R130. -/
theorem digestLength : Obligations.DigestLength := fun a _ size hm => length_digest a size hm

end Sys2Proof.Proofs
end

section
/-! SUPPORT. The Merkle collapsing engine as one level of the tree after another (R1110 to R1112): the stack after the pushes holds at each
level the node left without a sibling there, and Fold carries the last, still unpaired node of each level up to the next. -/

namespace Sys2Proof.Machine

open Sys2Proof.Safety

/-! ## One level of the tree -/

/-- The complete pairs of a level, combined. -/
def pairUp (nh : Bytes → Bytes → Bytes) : List Bytes → List Bytes
  | x :: y :: rest => nh x y :: pairUp nh rest
  | [_] => []
  | [] => []

/-- The last node of a level, when it has no sibling. -/
def unpaired : List Bytes → Option Bytes
  | _ :: _ :: rest => unpaired rest
  | [x] => some x
  | [] => none

theorem pairLevel_eq (nh : Bytes → Bytes → Bytes) (xs : List Bytes) :
    pairLevel nh xs = pairUp nh xs ++ (unpaired xs).toList := by
  induction xs using unpaired.induct with
  | case1 x y rest ih => simp [pairLevel, pairUp, unpaired, ih]
  | case2 x => rfl
  | case3 => rfl

theorem length_pairUp (nh : Bytes → Bytes → Bytes) (xs : List Bytes) : (pairUp nh xs).length = xs.length / 2 := by
  induction xs using unpaired.induct with
  | case1 x y rest ih => simp only [pairUp, List.length_cons, ih]; omega
  | case2 x => simp [pairUp]
  | case3 => rfl

/-- A level has an unpaired node exactly when its length is odd. -/
theorem isSome_unpaired (xs : List Bytes) : (unpaired xs).isSome = decide (xs.length % 2 = 1) := by
  induction xs using unpaired.induct with
  | case1 x y rest ih => simp only [unpaired, ih, List.length_cons, Nat.add_assoc, Nat.add_mod_right]
  | case2 x => rfl
  | case3 => rfl

/-- One more node on a level of even length stays unpaired. -/
theorem concat_of_unpaired_none (nh : Bytes → Bytes → Bytes) {xs : List Bytes} (h : unpaired xs = none) (x : Bytes) :
    unpaired (xs ++ [x]) = some x ∧ pairUp nh (xs ++ [x]) = pairUp nh xs := by
  induction xs using unpaired.induct with
  | case1 y z rest ih => simpa [unpaired, pairUp] using ih h
  | case2 y => cases h
  | case3 => exact ⟨rfl, rfl⟩

/-- One more node on a level of odd length pairs with the unpaired one. -/
theorem concat_of_unpaired_some (nh : Bytes → Bytes → Bytes) {xs : List Bytes} {e : Bytes} (h : unpaired xs = some e)
    (x : Bytes) : unpaired (xs ++ [x]) = none ∧ pairUp nh (xs ++ [x]) = pairUp nh xs ++ [nh e x] := by
  induction xs using unpaired.induct with
  | case1 y z rest ih => simpa [unpaired, pairUp] using ih h
  | case2 y => cases h; exact ⟨rfl, rfl⟩
  | case3 => cases h

/-! ## The root, level by level (R1112) -/

theorem length_pairLevel (nh : Bytes → Bytes → Bytes) (xs : List Bytes) :
    (pairLevel nh xs).length = (xs.length + 1) / 2 := by
  induction xs using pairLevel.induct with
  | case1 x y rest ih => simp only [pairLevel, List.length_cons, ih]; omega
  | case2 x => simp [pairLevel]
  | case3 => rfl

/-- Any two bounds that leave room for all levels give the same root. -/
theorem rootWithin_eq (nh : Bytes → Bytes → Bytes) : ∀ (j k : Nat) (xs : List Bytes),
    xs.length ≤ j + 1 → xs.length ≤ k + 1 → rootWithin nh j xs = rootWithin nh k xs
  | _, _, [], _, _ => by simp [rootWithin]
  | _, _, [x], _, _ => by simp [rootWithin]
  | 0, _, _ :: _ :: _, hj, _ => by simp at hj
  | _, 0, _ :: _ :: _, _, hk => by simp at hk
  | j + 1, k + 1, x :: y :: rest, hj, hk => by
    have hlen := length_pairLevel nh (x :: y :: rest)
    simp only [List.length_cons] at hj hk hlen
    exact rootWithin_eq nh j k (pairLevel nh (x :: y :: rest)) (by omega) (by omega)

theorem root_singleton (nh : Bytes → Bytes → Bytes) (x : Bytes) : root nh [x] = x := rfl

/-- A tree and its next level have the same root. -/
theorem root_pairLevel (nh : Bytes → Bytes → Bytes) : ∀ xs : List Bytes, root nh (pairLevel nh xs) = root nh xs
  | [] => rfl
  | [_] => rfl
  | x :: y :: rest => by
    have hlen := length_pairLevel nh (x :: y :: rest)
    simp only [List.length_cons] at hlen
    exact rootWithin_eq nh _ (rest.length + 1) _ (by omega) (by omega)

/-! ## The stack (R1110) -/

/-- The `k` levels of the stack that hold the nodes `xs` of the lowest of them: the unpaired node of each level. -/
def stackOf (nh : Bytes → Bytes → Bytes) : Nat → List Bytes → List (Option Bytes)
  | 0, _ => []
  | k + 1, xs => unpaired xs :: stackOf nh k (pairUp nh xs)

theorem stackOf_nil (nh : Bytes → Bytes → Bytes) (k : Nat) : stackOf nh k [] = List.replicate k none := by
  induction k with
  | zero => rfl
  | succ k ih => rw [List.replicate_succ, ← ih]; rfl

/-- Bit `i` of the counter says whether level `i` holds an unpaired node. -/
theorem getLsbD_eq_isSome_unpaired {n : W64} {i : Nat} {xs : List Bytes} (h : n.toNat / 2 ^ i = xs.length) :
    n.getLsbD i = (unpaired xs).isSome := by
  rw [isSome_unpaired, BitVec.getLsbD, Nat.testBit_eq_decide_div_mod_eq, h]

/-- The counter of the next level. -/
theorem div_two_pow_succ_eq_length_pairUp (nh : Bytes → Bytes → Bytes) {n i : Nat} {xs : List Bytes}
    (h : n / 2 ^ i = xs.length) : n / 2 ^ (i + 1) = (pairUp nh xs).length := by
  rw [length_pairUp, ← h, Nat.pow_succ, Nat.div_div_eq_div_mul]

/-- Push from level `i` adds one node to that level (R1110). -/
theorem pushFrom_stackOf (nh : Bytes → Bytes → Bytes) (n : W64) (k : Nat) : ∀ (i : Nat) (xs : List Bytes) (x : Bytes),
    n.toNat / 2 ^ i = xs.length → pushFrom nh n i (stackOf nh k xs) x = stackOf nh k (xs ++ [x]) := by
  induction k with
  | zero => intro i xs x _; rfl
  | succ k ih =>
    intro i xs x hcount
    have hbit := getLsbD_eq_isSome_unpaired hcount
    cases hun : unpaired xs with
    | none =>
      obtain ⟨hlast, hpairs⟩ := concat_of_unpaired_none nh hun x
      simp [stackOf, pushFrom, hbit, hun, hlast, hpairs]
    | some e =>
      obtain ⟨hlast, hpairs⟩ := concat_of_unpaired_some nh hun x
      simp [stackOf, pushFrom, hbit, hun, hlast, hpairs, ih _ _ _ (div_two_pow_succ_eq_length_pairUp nh hcount)]

/-- Fold from level `i`, with what the levels below have collapsed to as the last node of that level (R1111). -/
theorem foldFrom_stackOf (nh : Bytes → Bytes → Bytes) (n : W64) (k : Nat) :
    ∀ (i : Nat) (xs : List Bytes) (acc : Option Bytes), n.toNat / 2 ^ i = xs.length → xs.length < 2 ^ k →
      (foldFrom nh n i acc (stackOf nh k xs)).getD [] = root nh (xs ++ acc.toList) := by
  induction k with
  | zero =>
    intro i xs acc _ hlt
    obtain rfl : xs = [] := List.eq_nil_of_length_eq_zero (by omega)
    cases acc <;> rfl
  | succ k ih =>
    intro i xs acc hcount hlt
    have hbit := getLsbD_eq_isSome_unpaired hcount
    have hup := fun acc => ih (i + 1) (pairUp nh xs) acc (div_two_pow_succ_eq_length_pairUp nh hcount)
      (by rw [length_pairUp]; omega)
    rw [← root_pairLevel, pairLevel_eq]
    cases hun : unpaired xs with
    | none =>
      cases acc with
      | none => simp [stackOf, foldFrom, hbit, hun, hup]
      | some a => simp [stackOf, foldFrom, hbit, hun, hup, concat_of_unpaired_none nh hun a]
    | some e =>
      cases acc with
      | none => simp [stackOf, foldFrom, hbit, hun, hup]
      | some a => simp [stackOf, foldFrom, hbit, hun, hup, concat_of_unpaired_some nh hun a]

/-! ## The accumulator -/

/-- A 64-bit count of a list's entries is zero only for the empty list, below 2^64. -/
theorem ofNat_length_eq_zero_iff {α : Type} {xs : List α} (h : xs.length < 2 ^ 64) :
    BitVec.ofNat 64 xs.length = 0 ↔ xs = [] := by
  rw [← BitVec.toNat_inj, BitVec.toNat_ofNat, Nat.mod_eq_of_lt h]
  exact List.length_eq_zero_iff

/-- The accumulator after `xs` were pushed in order (R1112). -/
def merkleOf (nh : Bytes → Bytes → Bytes) (xs : List Bytes) : Merkle := xs.foldl (merklePush nh) merkleEmpty

theorem merkleOf_concat (nh : Bytes → Bytes → Bytes) (xs : List Bytes) (x : Bytes) :
    merkleOf nh (xs ++ [x]) = merklePush nh (merkleOf nh xs) x := by simp [merkleOf]

/-- One more piece hashed and pushed. -/
theorem merklePush_merkleOf_map (nh : Bytes → Bytes → Bytes) (leaf : Bytes → Bytes) (xs : List Bytes) (x : Bytes) :
    merklePush nh (merkleOf nh (xs.map leaf)) (leaf x) = merkleOf nh ((xs ++ [x]).map leaf) := by
  rw [List.map_append, List.map_singleton, merkleOf_concat]

theorem count_merkleOf (nh : Bytes → Bytes → Bytes) (xs : List Bytes) :
    (merkleOf nh xs).count = BitVec.ofNat 64 xs.length := by
  induction xs using concat_induction with
  | nil => rfl
  | concat xs x ih => simp [merkleOf_concat, merklePush, ih, BitVec.ofNat_add]

theorem toNat_count_merkleOf (nh : Bytes → Bytes → Bytes) {xs : List Bytes} (h : xs.length < 2 ^ 64) :
    (merkleOf nh xs).count.toNat = xs.length := by
  rw [count_merkleOf, BitVec.toNat_ofNat, Nat.mod_eq_of_lt h]

theorem count_merkleOf_map_eq_zero_iff (nh : Bytes → Bytes → Bytes) (leaf : Bytes → Bytes) {xs : List Bytes}
    (h : xs.length < 2 ^ 64) : (merkleOf nh (xs.map leaf)).count = 0 ↔ xs = [] := by
  rw [count_merkleOf, List.length_map, ofNat_length_eq_zero_iff h]

/-- The stack after the pushes holds the unpaired node of each level (R1110). -/
theorem stk_merkleOf (nh : Bytes → Bytes → Bytes) (xs : List Bytes) (h : xs.length < 2 ^ 64) :
    (merkleOf nh xs).stk = stackOf nh Config.nlevel xs := by
  induction xs using concat_induction with
  | nil => exact (stackOf_nil nh _).symm
  | concat xs x ih =>
    have hlt : xs.length < 2 ^ 64 := by simp at h; omega
    rw [merkleOf_concat, merklePush, ih hlt]
    exact pushFrom_stackOf nh _ _ 0 xs x (by simp [toNat_count_merkleOf nh hlt])

/-- Fold of what was pushed is the root of its tree, below 2^56 pushes (R1112). -/
theorem merkleFold_merkleOf (nh : Bytes → Bytes → Bytes) {xs : List Bytes} (h : xs.length < 2 ^ 56) :
    merkleFold nh (merkleOf nh xs) = root nh xs := by
  have hlt : xs.length < 2 ^ 64 := by omega
  rw [merkleFold, stk_merkleOf nh xs hlt]
  simpa using foldFrom_stackOf nh _ Config.nlevel 0 xs none (by simp [toNat_count_merkleOf nh hlt]) h

end Sys2Proof.Machine

namespace Sys2Proof.Proofs

open Sys2Proof.Machine

/-- Settles O28: the stack after the pushes holds the unpaired node of each level, and Fold is the root of what it holds. -/
theorem merkleRoot : Obligations.MerkleRoot := fun nh _ _ h => merkleFold_merkleOf nh h

end Sys2Proof.Proofs
end

section
/-! SUPPORT. A message cut into full pieces and an open rest, as an engine that reads byte by byte cuts it, and the pieces of the closed
forms from that cut (R1105, R1123, R1145). -/

namespace Sys2Proof.Machine

open Sys2Proof.Safety

/-- The message `m` as full pieces of `k` bytes and an open rest of at most `k` bytes. -/
structure Cut (k : Nat) (m : Bytes) (full : List Bytes) (rest : Bytes) : Prop where
  eq : full.flatten ++ rest = m
  size : ∀ p ∈ full, p.length = k
  le : rest.length ≤ k

section

variable {f k : Nat} {m : Bytes} {full : List Bytes} {rest : Bytes}

/-- A message of at most one piece may be seen as an open rest. -/
theorem Cut.of_le (h : m.length ≤ k) : Cut k m [] m := ⟨rfl, by simp, h⟩

theorem Cut.length_eq (h : Cut k m full rest) : full.length * k + rest.length = m.length := by
  rw [← h.eq, List.length_append, List.length_flatten, List.map_eq_replicate_iff.2 h.size, List.sum_replicate_nat]

theorem Cut.length_le (h : Cut k m full rest) (hk : 0 < k) : full.length ≤ m.length := by
  have hlen := h.length_eq
  have := Nat.le_mul_of_pos_right full.length hk
  omega

/-- One more byte goes to the open rest. -/
theorem Cut.snoc (h : Cut k m full rest) (hlt : rest.length < k) (v : Byte) :
    Cut k (m ++ [v]) full (rest ++ [v]) :=
  ⟨by rw [← List.append_assoc, h.eq], h.size, by rw [List.length_append]; exact hlt⟩

/-- A full rest is one more piece. -/
theorem Cut.close (h : Cut k m full rest) (hfull : rest.length = k) : Cut k m (full ++ [rest]) [] := by
  refine ⟨by simpa using h.eq, fun p hp => ?_, Nat.zero_le k⟩
  rcases List.mem_append.1 hp with hp | hp
  · exact h.size p hp
  · rw [List.mem_singleton.1 hp, hfull]

/-- Without an open rest the last piece may be seen as the rest. -/
theorem Cut.reopen {last : Bytes} (h : Cut k m (full ++ [last]) []) : Cut k m full last ∧ last.length = k := by
  have hlast := h.size last (by simp)
  exact ⟨⟨by simpa using h.eq, fun p hp => h.size p (List.mem_append_left _ hp), Nat.le_of_eq hlast⟩, hlast⟩

theorem piecesWithin_nil (f k : Nat) : piecesWithin f k [] = [] := by cases f <;> rfl

theorem piecesWithin_of_ne_nil (h : m ≠ []) (hf : m.length ≤ f) :
    piecesWithin f k m = m.take k :: piecesWithin (f - 1) k (m.drop k) := by
  obtain ⟨g, rfl⟩ : ∃ g, f = g + 1 := ⟨f - 1, by have := List.length_pos_iff.2 h; omega⟩
  cases m with
  | nil => exact absurd rfl h
  | cons v m => rfl

/-- The pieces of full pieces and an open rest are these again, whatever bound leaves room for them. -/
theorem piecesWithin_flatten (hne : rest ≠ []) (hle : rest.length ≤ k) (hsize : ∀ p ∈ full, p.length = k)
    (hf : (full.flatten ++ rest).length ≤ f) : piecesWithin f k (full.flatten ++ rest) = full ++ [rest] := by
  have hpos := List.length_pos_iff.2 hne
  rw [piecesWithin_of_ne_nil (by simp [hne]) hf]
  induction full generalizing f with
  | nil => simp [List.take_of_length_le hle, List.drop_eq_nil_of_le hle, piecesWithin_nil]
  | cons p full ih =>
    obtain rfl : p.length = k := hsize p (by simp)
    simp only [List.flatten_cons, List.append_assoc, List.length_append] at hf
    have hrec : (full.flatten ++ rest).length ≤ f - 1 := by rw [List.length_append]; omega
    rw [List.flatten_cons, List.append_assoc, List.take_left, List.drop_left,
      piecesWithin_of_ne_nil (by simp [hne]) hrec, ih (fun q hq => hsize q (by simp [hq])) hrec, List.cons_append]

/-- The pieces of a message with an open rest; the empty message has the empty rest as its one piece. -/
theorem Cut.pieces_rest (h : Cut k m full rest) (hne : rest ≠ [] ∨ full = []) :
    pieces k m = full ++ [rest] := by
  obtain ⟨rfl, hsize, hle⟩ := h
  by_cases hrest : rest = []
  · obtain rfl : full = [] := hne.resolve_left (· hrest)
    subst hrest; rfl
  · rw [pieces, if_neg (by simp [hrest]), piecesWithin_flatten hrest hle hsize (Nat.le_refl _)]

/-- The pieces of a message of full pieces only. -/
theorem Cut.pieces_full (h : Cut k m full []) (hk : 0 < k) (hne : full ≠ []) : pieces k m = full := by
  obtain ⟨init, last, rfl⟩ : ∃ init last, full = init ++ [last] := ⟨_, _, (List.dropLast_concat_getLast hne).symm⟩
  obtain ⟨hcut, hlast⟩ := h.reopen
  exact hcut.pieces_rest (.inl (List.ne_nil_of_length_pos (hlast ▸ hk)))

/-- The pieces of a message: its full pieces, and the rest when it is open or the only piece. -/
theorem Cut.pieces_eq (h : Cut k m full rest) (hk : 0 < k) :
    pieces k m = if rest ≠ [] ∨ full = [] then full ++ [rest] else full := by
  split
  · next hne => exact h.pieces_rest hne
  · next hne =>
    obtain ⟨hrest, hfull⟩ := not_or.1 hne
    obtain rfl : rest = [] := Classical.not_not.1 hrest
    exact h.pieces_full hk hfull

theorem pieces_ne_nil (k : Nat) (m : Bytes) : pieces k m ≠ [] := by
  cases m <;> simp [pieces, piecesWithin]

/-- A message of at most one piece is its own piece. -/
theorem pieces_of_length_le (h : m.length ≤ k) : pieces k m = [m] :=
  (Cut.of_le h).pieces_rest (.inr rfl)

theorem Cut.length_pieces_le (h : Cut k m full rest) (hk : 0 < k) : (pieces k m).length ≤ full.length + 1 := by
  rw [h.pieces_eq hk]
  split <;> simp

/-- Fold over the pieces of a message is the root of their tree, below 2^56 pieces (R1112). -/
theorem Cut.merkleFold_pieces (h : Cut k m full rest) (hk : 0 < k) (hlt : full.length + 1 < 2 ^ 56)
    (nh : Bytes → Bytes → Bytes) (leaf : Bytes → Bytes) :
    merkleFold nh (merkleOf nh ((pieces k m).map leaf)) = root nh ((pieces k m).map leaf) :=
  merkleFold_merkleOf nh (by rw [List.length_map]; exact Nat.lt_of_le_of_lt (h.length_pieces_le hk) hlt)

end

end Sys2Proof.Machine
end

section
/-! SUPPORT. The composite engines by what they have read (R1103, R1122, R1142): the context of each as a function of the cut of the
message into closed pieces and an open one, and the closed forms of R1105, R1112 and R1145. -/

namespace Sys2Proof.Machine

open Sys2Proof.Safety

/-- What a byte engine has read: a relation that holds at Init and that each byte carries on holds after every message. -/
theorem foldl_reads {τ : Type} {f : τ → Byte → τ} {c : τ} {R : Bytes → τ → Prop} (init : R [] c)
    (byte : ∀ m c v, R m c → R (m ++ [v]) (f c v)) (m : Bytes) : R m (m.foldl f c) := by
  induction m using concat_induction with
  | nil => exact init
  | concat m v ih => rw [List.foldl_append]; exact byte m _ v ih

/-- The digest of a tagged string, by the context that has absorbed the tag byte (R1120, R1140). -/
theorem mdFinal_tagged {σ : Type} (a : MdAlg σ) (tag : Byte) (s : Bytes) :
    mdFinal a (mdAbsorb a (mdAbsorb a (mdInit a) [tag]) s) = mdDigest a (tag :: s) := by
  rw [← mdAbsorb_append]; rfl

/-! ## ED2K -/

/-- An ED2K context that has read `m`: a chunk is closed only when a further byte arrives (R1103). -/
structure Ed2kReads (m : Bytes) (c : Ed2kCtx) (full : List Bytes) (rest : Bytes) : Prop where
  cut : Cut Config.chunkBytes m full rest
  lazy : full ≠ [] → rest ≠ []
  inner : c.inner = mdAbsorb md4Alg (mdInit md4Alg) rest
  outer : c.outer = mdAbsorb md4Alg (mdInit md4Alg) (full.map (mdDigest md4Alg)).flatten
  cb : c.cb = rest.length
  nch : c.nch = BitVec.ofNat 64 full.length

/-- A byte after a full chunk closes it and opens the next; any other goes to the open chunk (R1103). -/
theorem ed2kReads_byte {m : Bytes} {c : Ed2kCtx} {full : List Bytes} {rest : Bytes} (h : Ed2kReads m c full rest) (v : Byte) :
    ∃ full rest, Ed2kReads (m ++ [v]) (ed2kByte c v) full rest := by
  obtain ⟨hcut, -, hinner, houter, hcb, hnch⟩ := h
  by_cases hfull : c.cb = Config.chunkBytes
  · have hcut := (hcut.close (hcb ▸ hfull)).snoc (by decide) v
    refine ⟨full ++ [rest], [v], ?_⟩
    rw [ed2kByte, if_pos hfull]
    exact ⟨hcut, by simp, rfl, by simp [hinner, houter, mdAbsorb_append, mdDigest], rfl,
      by simp [hnch, BitVec.ofNat_add]⟩
  · have hcut := hcut.snoc (Nat.lt_of_le_of_ne hcut.le (hcb ▸ hfull)) v
    refine ⟨full, rest ++ [v], ?_⟩
    rw [ed2kByte, if_neg hfull]
    exact ⟨hcut, by simp, by simp [hinner, mdAbsorb_append], houter, by simp [hcb], hnch⟩

theorem ed2kReads_absorb (m : Bytes) : ∃ full rest, Ed2kReads m (ed2kAbsorb ed2kInit m) full rest :=
  foldl_reads (R := fun m c => ∃ full rest, Ed2kReads m c full rest)
    ⟨[], [], Cut.of_le (Nat.zero_le _), by simp, rfl, rfl, rfl, rfl⟩
    (fun _ _ v ⟨_, _, h⟩ => ed2kReads_byte h v) m

/-- The closed form of ED2K (R1105). -/
theorem digest_ed2k {m : Bytes} (size : W64) (hm : m.length < 2 ^ 64) : digest .ed2k m size =
    if m.length ≤ Config.chunkBytes then mdDigest md4Alg m
    else mdDigest md4Alg ((pieces Config.chunkBytes m).map (mdDigest md4Alg)).flatten := by
  obtain ⟨full, rest, hcut, hlazy, hinner, houter, -, hnch⟩ := ed2kReads_absorb m
  have hcount := hcut.length_le (by decide)
  change ed2kFinal (ed2kAbsorb ed2kInit m) = _
  simp only [ed2kFinal, hinner, houter, hnch, ofNat_length_eq_zero_iff (Nat.lt_of_le_of_lt hcount hm)]
  by_cases hone : full = []
  · subst hone
    obtain rfl : rest = m := hcut.eq
    rw [if_pos rfl, if_pos hcut.le, mdDigest]
  · have hrest := hlazy hone
    have hlong : ¬m.length ≤ Config.chunkBytes := by
      have := List.length_pos_iff.2 hrest
      have := Nat.le_mul_of_pos_left Config.chunkBytes (List.length_pos_iff.2 hone)
      have := hcut.length_eq
      omega
    rw [if_neg hone, if_neg hlong, hcut.pieces_rest (.inl hrest)]
    simp [mdDigest, mdAbsorb_append]

/-! ## TTH -/

/-- A TTH context that has read `m`: a leaf is closed as soon as it is full (R1122). -/
structure TthReads (m : Bytes) (c : TthCtx) (full : List Bytes) (rest : Bytes) : Prop where
  cut : Cut Config.leafBytes m full rest
  lctx : c.lctx = mdAbsorb tigerAlg tthLeafStart rest
  lb : c.lb = rest.length
  leaves : c.leaves = merkleOf nodeHashTth (full.map leafHashTth)
  lt : rest.length < Config.leafBytes

theorem mdFinal_tthLeaf (d : Bytes) : mdFinal tigerAlg (mdAbsorb tigerAlg tthLeafStart d) = leafHashTth d :=
  mdFinal_tagged tigerAlg 0x00 d

/-- A byte goes to the open leaf and closes it when it fills it (R1122). -/
theorem tthReads_byte {m : Bytes} {c : TthCtx} {full : List Bytes} {rest : Bytes} (h : TthReads m c full rest) (v : Byte) :
    ∃ full rest, TthReads (m ++ [v]) (tthByte c v) full rest := by
  obtain ⟨hcut, hlctx, hlb, hleaves, hlt⟩ := h
  have hcut := hcut.snoc hlt v
  have hlen : (rest ++ [v]).length = c.lb + 1 := by simp [hlb]
  simp only [tthByte, hlctx, ← mdAbsorb_append, mdFinal_tthLeaf, hleaves, merklePush_merkleOf_map]
  split
  · next hfull => exact ⟨full ++ [rest ++ [v]], [], hcut.close (hlen.trans hfull), rfl, rfl, rfl, by decide⟩
  · next hopen => exact ⟨full, rest ++ [v], hcut, rfl, hlen.symm, rfl, Nat.lt_of_le_of_ne hcut.le (hlen ▸ hopen)⟩

theorem tthReads_absorb (m : Bytes) : ∃ full rest, TthReads m (tthAbsorb tthInit m) full rest :=
  foldl_reads (R := fun m c => ∃ full rest, TthReads m c full rest)
    ⟨[], [], Cut.of_le (Nat.zero_le _), rfl, rfl, rfl, by decide⟩
    (fun _ _ v ⟨_, _, h⟩ => tthReads_byte h v) m

/-- The closed form of TTH (R1120 to R1123): an open leaf, or the one leaf of an empty message, is pushed at Final. -/
theorem digest_tth {m : Bytes} (size : W64) (hm : m.length < 2 ^ 64) :
    digest .tth m size = root nodeHashTth ((pieces Config.leafBytes m).map leafHashTth) := by
  obtain ⟨full, rest, hcut, hlctx, hlb, hleaves, -⟩ := tthReads_absorb m
  have hcount : full.length + 1 < 2 ^ 56 := by
    have := hcut.length_eq; simp only [Config.leafBytes] at this; omega
  change tthFinal (tthAbsorb tthInit m) = _
  have hzero := count_merkleOf_map_eq_zero_iff nodeHashTth leafHashTth (xs := full) (by omega)
  rw [← hcut.merkleFold_pieces (by decide) hcount, hcut.pieces_eq (by decide)]
  simp only [tthFinal, hlctx, hlb, hleaves, mdFinal_tthLeaf, merklePush_merkleOf_map, hzero, List.length_pos_iff]
  split <;> rfl

/-! ## AICH -/

/-- The hash of a chunk: the root of the tree over its parts (R1130, R1145). -/
def chunkHashAich (d : Bytes) : Bytes := root nodeHashAich ((pieces Config.partBytes d).map leafHashAich)

/-- An AICH context that has read `m`: a part is closed as soon as it is full or its chunk ends, and then the chunk with it (R1142). The
open chunk is cut into its closed parts and the open part. -/
structure AichReads (m : Bytes) (c : AichCtx) (full : List Bytes) (chunk : Bytes) (parts : List Bytes) (part : Bytes) :
    Prop where
  chunkCut : Cut Config.chunkBytes m full chunk
  partCut : Cut Config.partBytes chunk parts part
  pctx : c.pctx = mdAbsorb sha1Alg aichPartStart part
  pb : c.pb = part.length
  cpos : c.cpos = chunk.length
  parts_eq : c.parts = merkleOf nodeHashAich (parts.map leafHashAich)
  chunks_eq : c.chunks = merkleOf nodeHashAich (full.map chunkHashAich)
  chunk_lt : chunk.length < Config.chunkBytes
  part_lt : part.length < Config.partBytes

theorem mdFinal_aichPart (d : Bytes) : mdFinal sha1Alg (mdAbsorb sha1Alg aichPartStart d) = leafHashAich d :=
  mdFinal_tagged sha1Alg 0x00 d

/-- Fold over the parts of a chunk gives the hash of the chunk (R1112, R1142). -/
theorem merkleFold_parts {chunk : Bytes} {parts : List Bytes} {part : Bytes} (h : Cut Config.partBytes chunk parts part)
    (hle : chunk.length ≤ Config.chunkBytes) : merkleFold nodeHashAich
      (merkleOf nodeHashAich ((pieces Config.partBytes chunk).map leafHashAich)) = chunkHashAich chunk := by
  have hlen := h.length_eq
  simp only [Config.partBytes, Config.chunkBytes] at hlen hle
  exact h.merkleFold_pieces (by decide) (by omega) _ _

/-- The byte that ends a chunk closes its open part and the chunk (R1142). -/
theorem aichByte_chunk_end {c : AichCtx} (h : c.cpos + 1 = Config.chunkBytes) (v : Byte) : aichByte c v =
    { c with pctx := aichPartStart, pb := 0, cpos := 0, parts := merkleEmpty
             chunks := merklePush nodeHashAich c.chunks (merkleFold nodeHashAich
               (merklePush nodeHashAich c.parts (mdFinal sha1Alg (mdAbsorb sha1Alg c.pctx [v])))) } := by
  simp [aichByte, aichPartByte, aichCloseChunk, h]

/-- The byte that fills a part inside a chunk closes the part (R1142). -/
theorem aichByte_part_end {c : AichCtx} (hchunk : c.cpos + 1 ≠ Config.chunkBytes) (h : c.pb + 1 = Config.partBytes)
    (v : Byte) : aichByte c v =
      { c with pctx := aichPartStart, pb := 0, cpos := c.cpos + 1
               parts := merklePush nodeHashAich c.parts (mdFinal sha1Alg (mdAbsorb sha1Alg c.pctx [v])) } := by
  simp [aichByte, aichPartByte, aichCloseChunk, h, hchunk]

/-- Any other byte goes to the open part (R1142). -/
theorem aichByte_open {c : AichCtx} (hchunk : c.cpos + 1 ≠ Config.chunkBytes) (h : c.pb + 1 ≠ Config.partBytes)
    (v : Byte) : aichByte c v =
      { c with pctx := mdAbsorb sha1Alg c.pctx [v], pb := c.pb + 1, cpos := c.cpos + 1 } := by
  simp [aichByte, aichPartByte, aichCloseChunk, h, hchunk]

/-- A byte goes to the open part, and closes the part, or the part and the chunk, when it ends them (R1142). -/
theorem aichReads_byte {m : Bytes} {c : AichCtx} {full : List Bytes} {chunk : Bytes} {parts : List Bytes} {part : Bytes}
    (h : AichReads m c full chunk parts part) (v : Byte) :
    ∃ full chunk parts part, AichReads (m ++ [v]) (aichByte c v) full chunk parts part := by
  obtain ⟨hchunk, hpart, hpctx, hpb, hcpos, hparts, hchunks, hclt, hplt⟩ := h
  have hchunk := hchunk.snoc hclt v
  have hpart := hpart.snoc hplt v
  have hclen : (chunk ++ [v]).length = c.cpos + 1 := by simp [hcpos]
  have hplen : (part ++ [v]).length = c.pb + 1 := by simp [hpb]
  have hpctx : mdAbsorb sha1Alg c.pctx [v] = mdAbsorb sha1Alg aichPartStart (part ++ [v]) := by
    rw [hpctx, mdAbsorb_append]
  have hpush : merklePush nodeHashAich c.parts (mdFinal sha1Alg (mdAbsorb sha1Alg c.pctx [v])) =
      merkleOf nodeHashAich ((parts ++ [part ++ [v]]).map leafHashAich) := by
    rw [hparts, hpctx, mdFinal_aichPart, merklePush_merkleOf_map]
  by_cases hcend : c.cpos + 1 = Config.chunkBytes
  · have hclosed := hchunk.close (hclen.trans hcend)
    rw [aichByte_chunk_end hcend, hpush, ← hpart.pieces_rest (.inl (by simp)), merkleFold_parts hpart hchunk.le, hchunks,
      merklePush_merkleOf_map]
    exact ⟨_, [], [], [], hclosed, Cut.of_le (Nat.zero_le _), rfl, rfl, rfl, rfl, rfl, by decide, by decide⟩
  have hclt := Nat.lt_of_le_of_ne hchunk.le (hclen ▸ hcend)
  by_cases hpend : c.pb + 1 = Config.partBytes
  · have hclosed := hpart.close (hplen.trans hpend)
    rw [aichByte_part_end hcend hpend, hpush]
    exact ⟨_, _, _, [], hchunk, hclosed, rfl, rfl, hclen.symm, rfl, hchunks, hclt, by decide⟩
  · have hplt := Nat.lt_of_le_of_ne hpart.le (hplen ▸ hpend)
    rw [aichByte_open hcend hpend, hpctx]
    exact ⟨_, _, _, _, hchunk, hpart, rfl, hplen.symm, hclen.symm, hparts, hchunks, hclt, hplt⟩

theorem aichReads_absorb (size : W64) (m : Bytes) :
    ∃ full chunk parts part, AichReads m (aichAbsorb (aichInit size) m) full chunk parts part :=
  foldl_reads (R := fun m c => ∃ full chunk parts part, AichReads m c full chunk parts part)
    ⟨[], [], [], [], Cut.of_le (Nat.zero_le _), Cut.of_le (Nat.zero_le _), rfl, rfl, rfl, rfl, rfl, by decide, by decide⟩
    (fun _ _ v ⟨_, _, _, _, h⟩ => aichReads_byte h v) m

section

variable {m : Bytes} {c : AichCtx} {full : List Bytes} {chunk : Bytes} {parts : List Bytes} {part : Bytes}

theorem AichReads.length_parts_lt (h : AichReads m c full chunk parts part) : parts.length + 1 < 2 ^ 64 := by
  have hlen := h.partCut.length_le (by decide)
  have hlt := h.chunk_lt
  simp only [Config.chunkBytes] at hlt
  omega

/-- What Final has for parts: an open part, or the one empty part of an empty file, is pushed (R1143). -/
theorem AichReads.finalParts_eq (h : AichReads m c full chunk parts part) (hm : m.length < 2 ^ 64) : aichFinalParts c =
    merkleOf nodeHashAich
      ((if part ≠ [] ∨ (parts = [] ∧ full = []) then parts ++ [part] else parts).map leafHashAich) := by
  have hparts := count_merkleOf_map_eq_zero_iff nodeHashAich leafHashAich (xs := parts) (by have := h.length_parts_lt; omega)
  have hfull := count_merkleOf_map_eq_zero_iff nodeHashAich chunkHashAich
    (Nat.lt_of_le_of_lt (h.chunkCut.length_le (by decide)) hm)
  simp only [aichFinalParts, h.parts_eq, h.chunks_eq, hparts, hfull, h.pb, List.length_pos_iff]
  split
  · rw [h.pctx, mdFinal_aichPart, merklePush_merkleOf_map]
  · rfl

/-- At Final an open chunk, or the one empty chunk of an empty file, has its parts in the part accumulator (R1143). -/
theorem AichReads.finalParts_open (h : AichReads m c full chunk parts part) (hm : m.length < 2 ^ 64)
    (hopen : chunk ≠ [] ∨ full = []) :
    aichFinalParts c = merkleOf nodeHashAich ((pieces Config.partBytes chunk).map leafHashAich) := by
  have hone : part = [] → parts = [] → full = [] := fun hpart hparts =>
    hopen.resolve_left (· (by simp [← h.partCut.eq, hpart, hparts]))
  have hpush : (part ≠ [] ∨ parts = [] ∧ full = []) ↔ (part ≠ [] ∨ parts = []) := by
    refine ⟨Or.imp_right And.left, fun hne => ?_⟩
    by_cases hpart : part = []
    · have hparts := hne.resolve_left (· hpart)
      exact .inr ⟨hparts, hone hpart hparts⟩
    · exact .inl hpart
  simp only [h.finalParts_eq hm, h.partCut.pieces_eq (by decide), hpush]

/-- At Final no part is left when the last byte closed its chunk (R1143). -/
theorem AichReads.finalParts_closed (h : AichReads m c full [] parts part) (hm : m.length < 2 ^ 64) (hfull : full ≠ []) :
    aichFinalParts c = merkleEmpty := by
  have hpart : part = [] := (List.append_eq_nil_iff.1 h.partCut.eq).2
  have hparts : parts = [] := List.length_eq_zero_iff.1 (Nat.le_zero.1 (h.partCut.length_le (by decide)))
  rw [h.finalParts_eq hm, if_neg (by simp [hpart, hfull]), hparts]
  rfl

/-- The chunk accumulator at Final holds the hashes of the chunks of the message (R1143, R1145). -/
theorem AichReads.finalChunks_eq (h : AichReads m c full chunk parts part) (hm : m.length < 2 ^ 64) :
    aichFinalChunks c = merkleOf nodeHashAich ((pieces Config.chunkBytes m).map chunkHashAich) := by
  rw [aichFinalChunks, h.chunks_eq, h.chunkCut.pieces_eq (by decide)]
  by_cases hopen : chunk ≠ [] ∨ full = []
  · have hcount := Nat.lt_of_le_of_lt (h.partCut.length_pieces_le (by decide)) h.length_parts_lt
    have hpos := mt (count_merkleOf_map_eq_zero_iff nodeHashAich leafHashAich hcount).1 (pieces_ne_nil _ _)
    rw [h.finalParts_open hm hopen, if_neg hpos, if_pos hopen, merkleFold_parts h.partCut h.chunkCut.le,
      merklePush_merkleOf_map]
  · obtain ⟨hchunk, hfull⟩ := not_or.1 hopen
    obtain rfl : chunk = [] := Classical.not_not.1 hchunk
    rw [h.finalParts_closed hm hfull, if_neg hopen]
    rfl

end

/-- The closed form of AICH (R1145). -/
theorem digest_aich {m : Bytes} (size : W64) (hm : m.length < 2 ^ 64) :
    digest .aich m size = root nodeHashAich ((pieces Config.chunkBytes m).map chunkHashAich) := by
  obtain ⟨full, chunk, parts, part, h⟩ := aichReads_absorb size m
  have hlen := h.chunkCut.length_eq
  simp only [Config.chunkBytes] at hlen
  change aichFinal (aichAbsorb (aichInit size) m) = _
  rw [aichFinal, h.finalChunks_eq hm, h.chunkCut.merkleFold_pieces (by decide) (by omega)]

/-- A file of at most one part has the hash of that part (R1145). -/
theorem digest_aich_of_length_le {m : Bytes} (size : W64) (hm : m.length ≤ Config.partBytes) :
    digest .aich m size = leafHashAich m := by
  have hchunk : m.length ≤ Config.chunkBytes := Nat.le_trans hm (by decide)
  rw [digest_aich size (Nat.lt_of_le_of_lt hchunk (by decide)), pieces_of_length_le hchunk, List.map_singleton, root_singleton,
    chunkHashAich, pieces_of_length_le hm, List.map_singleton, root_singleton]

end Sys2Proof.Machine

namespace Sys2Proof.Proofs

open Sys2Proof.Machine

/-- Settles O27: ED2K's context after a message is that of the message cut into closed chunks and an open one; the value is MD4's of the
empty message. -/
theorem ed2kClosedForm : Obligations.Ed2kClosedForm :=
  ⟨fun _ size hm => digest_ed2k size hm, digest_ed2k 0 (by decide), by decide +kernel⟩

/-- Settles O29: TTH's context after a message holds the hashes of its full leaves, and Final adds the last. -/
theorem tthClosedForm : Obligations.TthClosedForm := fun _ size hm => digest_tth size hm

/-- Settles O30: AICH's context after a message holds the hashes of its full chunks and of the full parts of the open one; a file of one
part is its own tree at both levels. -/
theorem aichClosedForm : Obligations.AichClosedForm :=
  ⟨fun _ size hm => digest_aich size hm, fun _ size hm => digest_aich_of_length_le size hm,
    (digest_aich_of_length_le 3 (by decide)).trans (by decide +kernel)⟩

end Sys2Proof.Proofs
end

section
/-! SUPPORT. The commands on a slot: the checks they share (R1410), what they leave once the checks have passed, and how they depend on the
slots (R1230). -/

namespace Sys2Proof.Machine

open Sys2Proof.Safety

/-! ## Checks (R1410) -/

/-- The check of a SEL that names an algorithm, and what follows it (R1410 step 4). -/
def onAlg (alg : Nat) (s : State) (f : Alg → Host.Outcome State Fault Refusal) : Host.Outcome State Fault Refusal :=
  match algOf alg with
  | none => raised s .badAlg
  | some a => f a

/-- The checks of SID and SEL that begin a command on one algorithm of a slot, and what follows them (R1410 steps 3 and 4). -/
def onAlgOfSlot (alg sid : Nat) (s : State) (f : Alg → Host.Outcome State Fault Refusal) : Host.Outcome State Fault Refusal :=
  if !sidOk s sid then raised s .badSid else onAlg alg s f

theorem onAlg_algId (s : State) (a : Alg) (f : Alg → Host.Outcome State Fault Refusal) : onAlg (algId a) s f = f a := by
  rw [onAlg, algOf_algId]

theorem onAlg_of_le {alg : Nat} (h : 17 ≤ alg) (s : State) (f : Alg → Host.Outcome State Fault Refusal) :
    onAlg alg s f = raised s .badAlg := by
  rw [onAlg, algOf_eq_none.2 h]

/-- The SID check (R302). -/
theorem not_sidOk_iff {s : State} {sid : Nat} : (!sidOk s sid) = true ↔ s.params.nsess ≤ sid := by
  simp [sidOk_eq]

/-- A number below 17 is an algorithm's identifier (R130). -/
theorem exists_algId {alg : Nat} (h : ¬17 ≤ alg) : ∃ a, alg = algId a := by
  obtain ⟨a, ha⟩ := Option.ne_none_iff_exists'.1 (mt algOf_eq_none.1 h)
  exact ⟨a, algOf_eq_some ha⟩

theorem algId_eq_iff {a b : Alg} : algId a = algId b ↔ a = b := ⟨algId_inj, congrArg algId⟩

/-- One check of a command: where it fails the command completes with its code and keeps the state, and where it passes the command is
what follows. The case distinction of a statement may put the check in other words. -/
theorem check_effect {s : State} {c : Code} {p q Q : Prop} [Decidable p] [Decidable q]
    {o o' : Host.Outcome State Fault Refusal} (ho : o = if q then raised s c else o') (hpq : q ↔ p)
    (hQ : ¬p → o = o' → Q) : if p then CompletesKeeping o s c {} [] else Q := by
  by_cases hp : p
  · rw [if_pos hp, ho, if_pos (hpq.2 hp)]
    exact completesKeeping_raised s c {}
  · rw [if_neg hp]
    exact hQ hp (ho.trans (if_neg (mt hpq.1 hp)))

/-- The check of SEL, as a case of a statement. -/
theorem onAlg_effect {s : State} {alg : Nat} {f : Alg → Host.Outcome State Fault Refusal} {Q : Prop}
    {o : Host.Outcome State Fault Refusal} (ho : o = onAlg alg s f) (hQ : ∀ a, alg = algId a → o = f a → Q) :
    if 17 ≤ alg then CompletesKeeping o s .badAlg {} [] else Q := by
  by_cases halg : 17 ≤ alg
  · rw [if_pos halg, ho, onAlg_of_le halg]
    exact completesKeeping_raised s .badAlg {}
  · obtain ⟨a, rfl⟩ := exists_algId halg
    rw [if_neg halg]
    exact hQ a rfl (ho.trans (onAlg_algId s a f))

/-- The checks of SID and SEL, as the first two cases of a statement. -/
theorem onAlgOfSlot_effect {s : State} {alg sid : Nat} {f : Alg → Host.Outcome State Fault Refusal} {Q : Prop}
    {o : Host.Outcome State Fault Refusal} (ho : o = onAlgOfSlot alg sid s f)
    (hQ : sid < s.params.nsess → ∀ a, alg = algId a → o = f a → Q) :
    if s.params.nsess ≤ sid then CompletesKeeping o s .badSid {} []
    else if 17 ≤ alg then CompletesKeeping o s .badAlg {} [] else Q :=
  check_effect ho not_sidOk_iff fun hsid ho => onAlg_effect ho fun a ha ho => hQ (Nat.lt_of_not_le hsid) a ha ho

/-- A check that ends with an error does not end with OK (R1401). -/
theorem passed_of_ok {s t : State} {c : Code} {p : Prop} [Decidable p] {o : Host.Outcome State Fault Refusal}
    (h : (if p then raised s c else o) = .next t) (hok : t.status.code = .ok) (hc : c ≠ .ok) : o = .next t := by
  by_cases hp : p
  · rw [if_pos hp, raised_eq] at h
    obtain rfl := Host.Outcome.next.inj h
    exact absurd hok hc
  · rwa [if_neg hp] at h

/-! ## Completion over a slot -/

theorem slot_setSlot_kept (s : State) (sid : Nat) (sl : Slot) : OtherSlotsKept s (s.setSlot sid sl) sid :=
  ⟨List.length_set, fun _ hj => slot_setSlot_other s sl hj⟩

/-- A command that has passed its checks sets its slot and completes with OK. -/
theorem completesSettingSlot_complete {s : State} {sid : Nat} {sl : Slot} {P : Slot → Prop} (r : Results) {out : Bytes}
    (hsid : sid < s.slots.length) (hP : P sl) (hout : out.length < 2 ^ 16) :
    CompletesSettingSlot (.next ((s.setSlot sid sl).complete .ok r out)) s r out sid P := by
  have hkept : Kept s ((s.setSlot sid sl).complete .ok r out) := kept_complete (s.setSlot sid sl) .ok r out
  have hslot : P (((s.setSlot sid sl).complete .ok r out).slot sid) := by
    rwa [slot_complete, slot_setSlot_self s sl hsid]
  exact ⟨_, rfl, completed_complete (s.setSlot sid sl) .ok r hout, hkept, slot_setSlot_kept s sid sl, hslot, rfl⟩

/-! ## How a command depends on the slots (R1230) -/

/-- The state with other slots. -/
def State.withSlots (s : State) (sls : List Slot) : State := { s with slots := sls }

/-- The slots after a command that leaves `w` in slot `sid`, or leaves every slot as it is. -/
def writeBack (sid : Nat) (w : Option Slot) (sls : List Slot) : List Slot := w.elim sls (sls.set sid)

/-- Run in `s`, and in `s` with the slots `sls`, a command leaves one state but for the slots, where it writes the same slot `sid` back in
both, and none when it has no SID. -/
def SameEffect (usesSid : Bool) (sid : Nat) (s : State) (sls : List Slot) (o o' : Host.Outcome State Fault Refusal) : Prop :=
  ∃ (t : State) (w : Option Slot), (usesSid = false → w = none) ∧ o = .next (t.withSlots (writeBack sid w s.slots)) ∧
    o' = .next (t.withSlots (writeBack sid w sls))

/-- A relation between two outcomes that a check decides alike. -/
theorem rel_ite {α : Type} {R : α → α → Prop} {p : Prop} [Decidable p] {a a' b b' : α} (h : R a a') (h' : R b b') :
    R (if p then a else b) (if p then a' else b') := by
  by_cases hp : p
  · rwa [if_pos hp, if_pos hp]
  · rwa [if_neg hp, if_neg hp]

section

variable {u : Bool} {sid : Nat} {s : State} {sls : List Slot}

theorem sameEffect_complete (c : Code) (r : Results) (out : Bytes) :
    SameEffect u sid s sls (.next (s.complete c r out)) (.next ((s.withSlots sls).complete c r out)) :=
  ⟨s.complete c r out, none, fun _ => rfl, rfl, rfl⟩

theorem sameEffect_scr (x : Option Ctx) (c : Code) (r : Results) (out : Bytes) :
    SameEffect u sid s sls (.next ({ s with scr := x }.complete c r out))
      (.next ({ s.withSlots sls with scr := x }.complete c r out)) :=
  ⟨{ s with scr := x }.complete c r out, none, fun _ => rfl, rfl, rfl⟩

theorem sameEffect_setSlot (sl : Slot) (c : Code) (r : Results) (out : Bytes) :
    SameEffect true sid s sls (.next ((s.setSlot sid sl).complete c r out))
      (.next (((s.withSlots sls).setSlot sid sl).complete c r out)) :=
  ⟨s.complete c r out, some sl, nofun, rfl, rfl⟩

theorem sameEffect_check {p : Prop} [Decidable p] {c : Code} {o o' : Host.Outcome State Fault Refusal}
    (h : SameEffect u sid s sls o o') :
    SameEffect u sid s sls (if p then raised s c else o) (if p then raised (s.withSlots sls) c else o') :=
  rel_ite (sameEffect_complete c {} []) h

theorem sameEffect_found (x : Option Ctx) (o : Option Nat) :
    SameEffect u sid s sls (.next ({ s with scr := x }.found o)) (.next ({ s.withSlots sls with scr := x }.found o)) := by
  cases o with
  | none => exact sameEffect_scr x _ _ _
  | some n => exact sameEffect_scr x _ _ _

theorem sameEffect_onAlg {alg : Nat} {f f' : Alg → Host.Outcome State Fault Refusal}
    (h : ∀ a, SameEffect u sid s sls (f a) (f' a)) :
    SameEffect u sid s sls (onAlg alg s f) (onAlg alg (s.withSlots sls) f') := by
  unfold onAlg
  cases algOf alg with
  | none => exact sameEffect_complete _ _ _
  | some a => exact h a

theorem sameEffect_onAlgOfSlot {alg : Nat} {f f' : Alg → Host.Outcome State Fault Refusal}
    (h : ∀ a, SameEffect u sid s sls (f a) (f' a)) :
    SameEffect u sid s sls (onAlgOfSlot alg sid s f) (onAlgOfSlot alg sid (s.withSlots sls) f') :=
  sameEffect_check (sameEffect_onAlg h)

end

/-! ### The commands with a SID -/

section

variable {sid : Nat} {s : State} {sls : List Slot}

theorem execSNew_sameEffect : SameEffect true sid s sls (execSNew sid s) (execSNew sid (s.withSlots sls)) :=
  sameEffect_check <| sameEffect_check <| sameEffect_check <| sameEffect_setSlot _ _ _ _

theorem execDInit_sameEffect (alg : Nat) :
    SameEffect true sid s sls (execDInit alg sid s) (execDInit alg sid (s.withSlots sls)) :=
  sameEffect_onAlgOfSlot fun _ => sameEffect_check <| sameEffect_check <| sameEffect_setSlot _ _ _ _

variable (h : (s.withSlots sls).slot sid = s.slot sid)

include h

theorem execSAdd_sameEffect (alg : Nat) :
    SameEffect true sid s sls (execSAdd alg sid s) (execSAdd alg sid (s.withSlots sls)) := by
  refine sameEffect_onAlgOfSlot fun a => ?_
  rw [h]
  exact sameEffect_check <| rel_ite (sameEffect_complete _ _ _) <| rel_ite (sameEffect_complete _ _ _) <|
    sameEffect_check <| sameEffect_setSlot _ _ _ _

theorem execSRemove_sameEffect (alg : Nat) :
    SameEffect true sid s sls (execSRemove alg sid s) (execSRemove alg sid (s.withSlots sls)) := by
  refine sameEffect_onAlgOfSlot fun a => ?_
  rw [h]
  exact sameEffect_check <| rel_ite (sameEffect_complete _ _ _) <| sameEffect_setSlot _ _ _ _

theorem execSUpdate_sameEffect :
    SameEffect true sid s sls (execSUpdate sid s) (execSUpdate sid (s.withSlots sls)) := by
  rw [execSUpdate, execSUpdate, h]
  exact sameEffect_check <| sameEffect_check <| sameEffect_check <| sameEffect_check <| sameEffect_check <|
    sameEffect_setSlot _ _ _ _

theorem execSResult_sameEffect (alg : Nat) :
    SameEffect true sid s sls (execSResult alg sid s) (execSResult alg sid (s.withSlots sls)) := by
  refine sameEffect_onAlgOfSlot fun a => ?_
  rw [h]
  exact sameEffect_check <| sameEffect_check <| sameEffect_complete _ _ _

theorem execSQuery_sameEffect : SameEffect true sid s sls (execSQuery sid s) (execSQuery sid (s.withSlots sls)) := by
  rw [execSQuery, execSQuery, h]
  exact sameEffect_check <| sameEffect_complete _ _ _

theorem execDFinal_sameEffect (alg : Nat) :
    SameEffect true sid s sls (execDFinal alg sid s) (execDFinal alg sid (s.withSlots sls)) := by
  refine sameEffect_onAlgOfSlot fun a => ?_
  rw [h]
  exact sameEffect_check <| sameEffect_check <| sameEffect_setSlot _ _ _ _

end

/-! ### The commands without a SID -/

section

variable {sid : Nat} {s : State} {sls : List Slot}

theorem execDHash_sameEffect (alg : Nat) :
    SameEffect false sid s sls (execDHash alg s) (execDHash alg (s.withSlots sls)) :=
  sameEffect_onAlg fun _ => sameEffect_check <| sameEffect_scr _ _ _ _

theorem execEncode_sameEffect (enc : Nat) :
    SameEffect false sid s sls (execEncode enc s) (execEncode enc (s.withSlots sls)) := by
  unfold execEncode
  cases encOf enc with
  | none => exact sameEffect_complete _ _ _
  | some e => exact sameEffect_check <| sameEffect_check <| sameEffect_complete _ _ _

theorem execDecode_sameEffect (enc : Nat) :
    SameEffect false sid s sls (execDecode enc s) (execDecode enc (s.withSlots sls)) := by
  unfold execDecode
  cases encOf enc with
  | none => exact sameEffect_complete _ _ _
  | some e =>
    refine sameEffect_check ?_
    have hoperand : operandBytes (s.withSlots sls) (s.withSlots sls).draws (s.withSlots sls).arg1 (s.withSlots sls).arg0 =
      operandBytes s s.draws s.arg1 s.arg0 := rfl
    rw [hoperand]
    cases decodeText e (operandBytes s s.draws s.arg1 s.arg0) with
    | parse pos => exact sameEffect_complete _ _ _
    | ok out used => exact sameEffect_complete _ _ _

theorem execDetectEnc_sameEffect : SameEffect false sid s sls (execDetectEnc s) (execDetectEnc (s.withSlots sls)) :=
  sameEffect_check <| sameEffect_found s.scr _

theorem execRegSize_sameEffect (alg : Nat) :
    SameEffect false sid s sls (execRegSize alg s) (execRegSize alg (s.withSlots sls)) :=
  sameEffect_onAlg fun _ => sameEffect_complete _ _ _

theorem execRegName_sameEffect (alg : Nat) :
    SameEffect false sid s sls (execRegName alg s) (execRegName alg (s.withSlots sls)) :=
  sameEffect_onAlg fun _ => sameEffect_complete _ _ _

theorem execRegFromName_sameEffect :
    SameEffect false sid s sls (execRegFromName s) (execRegFromName (s.withSlots sls)) :=
  sameEffect_check <| sameEffect_found s.scr _

theorem execDetectAlg_sameEffect : SameEffect false sid s sls (execDetectAlg s) (execDetectAlg (s.withSlots sls)) :=
  sameEffect_check <| sameEffect_found _ _

end

/-- Every command has the same effect in two states that differ only in slots it does not name. -/
theorem exec_sameEffect (i : Instr) (s : State) (sls : List Slot)
    (h : opUsesSid (opOf i) = true → (s.withSlots sls).slot (sidOf i) = s.slot (sidOf i)) :
    SameEffect (opUsesSid (opOf i)) (sidOf i) s sls (exec i s) (exec i (s.withSlots sls)) := by
  cases i with
  | nop => exact sameEffect_complete _ _ _
  | sNew sid => exact execSNew_sameEffect
  | sAdd alg sid => exact execSAdd_sameEffect (h rfl) alg
  | sRemove alg sid => exact execSRemove_sameEffect (h rfl) alg
  | sUpdate sid => exact execSUpdate_sameEffect (h rfl)
  | sResult alg sid => exact execSResult_sameEffect (h rfl) alg
  | sQuery sid => exact execSQuery_sameEffect (h rfl)
  | dInit alg sid => exact execDInit_sameEffect alg
  | dFinal alg sid => exact execDFinal_sameEffect (h rfl) alg
  | dHash alg => exact execDHash_sameEffect alg
  | encode enc => exact execEncode_sameEffect enc
  | decode enc => exact execDecode_sameEffect enc
  | detectEnc => exact execDetectEnc_sameEffect
  | regSize alg => exact execRegSize_sameEffect alg
  | regName alg => exact execRegName_sameEffect alg
  | regFromName => exact execRegFromName_sameEffect
  | detectAlg => exact execDetectAlg_sameEffect

/-- What is written back leaves the other slots as they were. -/
theorem slot_writeBack_other (t : State) {sid j : Nat} (w : Option Slot) (sls : List Slot) (h : j ≠ sid) :
    (t.withSlots (writeBack sid w sls)).slot j = (t.withSlots sls).slot j := by
  cases w with
  | none => rfl
  | some sl => exact slot_setSlot_other (t.withSlots sls) sl h

/-- What is written back leaves the same slot, where the slot was the same and there are as many slots. -/
theorem slot_writeBack_congr (t : State) {sid : Nat} (w : Option Slot) {sls sls' : List Slot} (hlen : sls'.length = sls.length)
    (h : (t.withSlots sls').slot sid = (t.withSlots sls).slot sid) :
    (t.withSlots (writeBack sid w sls')).slot sid = (t.withSlots (writeBack sid w sls)).slot sid := by
  cases w with
  | none => exact h
  | some sl => simp [State.slot, State.withSlots, writeBack, List.getD_eq_getElem?_getD, List.getElem?_set, hlen]

end Sys2Proof.Machine

namespace Sys2Proof.Proofs

open Sys2Proof.Machine

/-- Settles O12: every command writes back at most the slot it names, and what it writes and answers is the same in two states that differ
in other slots. -/
theorem slotIndependence : Obligations.SlotIndependence := by
  refine ⟨fun i s t ht => ?_, fun i s s' hlen heq hslot => ?_⟩
  · obtain ⟨t₀, w, hw, ho, -⟩ := exec_sameEffect i s s.slots fun _ => rfl
    obtain rfl : t = _ := Host.Outcome.next.inj (ht.symm.trans ho)
    exact ⟨fun j hj => slot_writeBack_other t₀ w s.slots hj, fun hsid => by rw [hw hsid]; rfl⟩
  · have hs' : s' = s.withSlots s'.slots := heq
    obtain ⟨t₀, w, -, ho, ho'⟩ := exec_sameEffect i s s'.slots fun hsid => hs' ▸ hslot hsid
    refine ⟨_, _, ho, hs' ▸ ho', rfl, fun hsid => slot_writeBack_congr t₀ w hlen (hslot hsid)⟩

end Sys2Proof.Proofs
end

section
/-! SUPPORT. S_UPDATE as absorption: what an update that ends with OK leaves, and that a chain of updates is one (R1210 to R1212). -/

namespace Sys2Proof.Machine

open Sys2Proof.Safety

/-- An S_UPDATE that ends with OK has updated its slot with its operand (R1210). -/
theorem slots_of_sUpdate_ok {s t : State} {sid : Nat} (h : exec (.sUpdate sid) s = .next t) (hok : t.status.code = .ok) :
    t.slots = s.slots.set sid (slotUpdate (s.slot sid) (operand s)) := by
  rw [exec, execSUpdate] at h
  have hrange := passed_of_ok h hok nofun
  have hfinal := passed_of_ok hrange hok nofun
  have hover := passed_of_ok hfinal hok nofun
  have hsize := passed_of_ok hover hok nofun
  have hdone := passed_of_ok hsize hok nofun
  obtain rfl := Host.Outcome.next.inj hdone
  rfl

theorem slot_of_sUpdate_ok {s t : State} {sid : Nat} (hsid : sid < s.slots.length)
    (h : exec (.sUpdate sid) s = .next t) (hok : t.status.code = .ok) :
    t.slot sid = slotUpdate (s.slot sid) (operand s) := by
  rw [State.slot, slots_of_sUpdate_ok h hok]
  exact slot_setSlot_self s _ hsid

/-- Two updates are the update with both strings (R1211). -/
theorem slotUpdate_append (sl : Slot) (m m' : Bytes) : slotUpdate (slotUpdate sl m) m' = slotUpdate sl (m ++ m') := by
  have hctx : ∀ a, (if slotEn (slotUpdate sl m) a then (slotCtx (slotUpdate sl m) a).map fun c => absorbCtx a c m'
      else slotCtx (slotUpdate sl m) a) =
      if slotEn sl a then (slotCtx sl a).map fun c => absorbCtx a c (m ++ m') else slotCtx sl a := by
    intro a
    cases hen : slotEn sl a <;> simp [hen, absorbCtx_append, Function.comp_def]
  have htotal : (slotUpdate sl m).total + BitVec.ofNat 64 m'.length = sl.total + BitVec.ofNat 64 (m ++ m').length := by
    simp [slotUpdate, BitVec.ofNat_add, BitVec.add_assoc]
  rw [slotUpdate, funext hctx, htotal]
  rfl

/-- A chain of updates is one update with all the strings (R1212). -/
theorem foldl_slotUpdate (m : Bytes) (ms : List Bytes) : ∀ sl : Slot,
    ms.foldl slotUpdate (slotUpdate sl m) = slotUpdate sl (m :: ms).flatten := by
  induction ms generalizing m with
  | nil => intro sl; simp
  | cons m' ms ih =>
    intro sl
    rw [List.foldl_cons, slotUpdate_append, ih]
    simp

/-- A chain of S_UPDATE commands updates the slot with the strings it feeds. -/
theorem eq_foldl_of_feeds {sid : Nat} (ms : List Bytes) : ∀ {sl sl' : Slot}, Feeds sid sl ms sl' →
    sl' = ms.foldl slotUpdate sl := by
  induction ms with
  | nil => exact fun h => h
  | cons m ms ih =>
    rintro sl sl' ⟨s, t, rfl, hsid, rfl, ht, hok, hrest⟩
    rw [List.foldl_cons, ← slot_of_sUpdate_ok hsid ht hok]
    exact ih hrest

end Sys2Proof.Machine

namespace Sys2Proof.Proofs

open Sys2Proof.Machine

/-- Settles O24: both chains leave the slot updated with all the bytes, however they are cut. -/
theorem commandChunkInvariance : Obligations.CommandChunkInvariance := by
  intro sid sl sl1 sl2 ms hms hchain hone
  obtain ⟨m, ms, rfl⟩ := List.exists_cons_of_ne_nil hms
  calc sl1 = (m :: ms).foldl slotUpdate sl := eq_foldl_of_feeds _ hchain
    _ = slotUpdate sl (m :: ms).flatten := foldl_slotUpdate m ms sl
    _ = sl2 := (eq_foldl_of_feeds _ hone).symm

end Sys2Proof.Proofs
end

section
/-! SUPPORT. What each session command does, check by check (R1201 to R1224): the checks in the words of the statements, and the slot or
the digest that follows them. -/

namespace Sys2Proof.Machine

open Sys2Proof.Safety

/-! ## The checks in arithmetic (R303, R1203) -/

/-- mask[31:17] and flags[31:1] of S_NEW (R1203). -/
theorem not_maskOk_and_flagsOk_iff {s : State} :
    (!(maskOk s && flagsOk s)) = true ↔ 2 ^ 17 ≤ s.arg0.toNat ∨ 2 ≤ s.arg1.toNat := by
  simp [maskOk_eq, flagsOk_eq, Nat.succ_le_iff]

/-- flags[31:1] of D_INIT (R1220). -/
theorem not_flagsOk_iff {s : State} : (!flagsOk s) = true ↔ 2 ≤ s.arg1.toNat := by
  simp [flagsOk_eq, Nat.succ_le_iff]

/-- SIZE_VALID, once flags[31:1] = 0 (R303). -/
theorem sizeValid_of_flags {s : State} (h : s.arg1.toNat < 2) : sizeValid s = decide (s.arg1.toNat = 1) := by
  rw [sizeValid_eq, Nat.mod_eq_of_lt h]

theorem not_sizeValid_iff {s : State} (h : s.arg1.toNat < 2) : (!sizeValid s) = true ↔ s.arg1.toNat = 0 := by
  rw [sizeValid_of_flags h, Bool.not_eq_true', decide_eq_false_iff_not]
  omega

/-- Bit 16 of the mask is AICH's, and bit 16 of ARG0 (R303). -/
theorem getLsbD_argMask (s : State) : (argMask s).getLsbD 16 = s.arg0.getLsbD 16 := by
  simp [argMask]

theorem algId_eq_sixteen_iff {a : Alg} : algId a = 16 ↔ a = .aich := algId_eq_iff (b := .aich)

/-! ## Slots and their words -/

theorem isNewSlot_newSlot (mask : BitVec 17) (hs : Bool) (size : W64) : IsNewSlot mask hs size (newSlot mask hs size) :=
  ⟨rfl, rfl, rfl, rfl, rfl, rfl, rfl, slotCtx_newSlot mask hs size⟩

theorem isAdded_slotAdd {sl : Slot} (h : sl.ctx.length = 17) (a : Alg) : IsAdded sl (algId a) (slotAdd sl a) := by
  refine ⟨⟨rfl, rfl, rfl, rfl, rfl⟩, fun b => ?_, fun b => ?_⟩
  · simp only [slotEn_slotAdd, algId_eq_iff]
  · rw [slotCtx_slotAdd sl a b h]
    by_cases hb : b = a
    · subst hb; simp
    · simp [hb, algId_eq_iff]

theorem isRemoved_slotRemove (sl : Slot) (a : Alg) : IsRemoved sl (algId a) (slotRemove sl a) := by
  refine ⟨⟨rfl, rfl, rfl, rfl, rfl⟩, fun b => ?_, fun b => ?_⟩
  · simp only [slotEn_slotRemove, algId_eq_iff]
  · simp only [slotCtx_slotRemove, algId_eq_iff]

/-- TOTAL counts the bytes, below 2^64 (R1210). -/
theorem toNat_total_slotUpdate {sl : Slot} {m : Bytes} (h : sl.total.toNat + m.length < 2 ^ 64) :
    (slotUpdate sl m).total.toNat = sl.total.toNat + m.length := by
  simp only [slotUpdate, BitVec.toNat_add, BitVec.toNat_ofNat]; omega

theorem isFed_slotUpdate {sl : Slot} {m : Bytes} (h : sl.total.toNat + m.length < 2 ^ 64) : IsFed sl m (slotUpdate sl m) :=
  ⟨rfl, rfl, rfl, rfl, rfl, toNat_total_slotUpdate h, slotCtx_slotUpdate sl m⟩

/-- The two words of a 64-bit result (R109). -/
theorem lowWord_eq (x : W64) : x.extractLsb' 0 32 = BitVec.ofNat 32 x.toNat := by
  apply BitVec.eq_of_toNat_eq; simp

theorem highWord_eq (x : W64) : x.extractLsb' 32 32 = BitVec.ofNat 32 (x.toNat / 2 ^ 32) := by
  apply BitVec.eq_of_toNat_eq; simp [Nat.shiftRight_eq_div_pow]

theorem queryFlags_eq (sl : Slot) :
    queryFlags sl = BitVec.ofNat 32 (sl.dirty.toNat + 2 * sl.final.toNat + 4 * sl.hasSize.toNat) := by
  unfold queryFlags
  cases sl.dirty <;> cases sl.final <;> cases sl.hasSize <;> rfl

/-- The mask of D_INIT as a number (R1220). -/
theorem oneAlg_eq (a : Alg) : oneAlg a = BitVec.ofNat 17 (2 ^ algId a) := by cases a <;> rfl

/-! ## Digests -/

/-- The digest of an enabled algorithm is that of its context, of the declared length (R1213, R1222). -/
theorem slotDigest_of_enabled {sl : Slot} (h : SlotOk sl) {a : Alg} (hen : slotEn sl a = true) :
    ∃ c, slotCtx sl a = some c ∧ slotDigest sl a = finalCtx a c ∧ (finalCtx a c).length = digestLen a := by
  obtain ⟨c, hc, -⟩ := exists_slotCtx h hen
  have hdig : slotDigest sl a = finalCtx a c := by simp [slotDigest, hc]
  exact ⟨c, hc, hdig, hdig ▸ length_slotDigest h hen⟩

/-- The digest of a slot with one algorithm and one update is that of the update's bytes (R1224). -/
theorem slotDigest_session (a : Alg) (size : W64) (m : Bytes) :
    slotDigest (slotUpdate (newSlot (oneAlg a) true size) m) a = digest a m size := by
  simp [slotDigest, digest, getLsbD_oneAlg]

/-- The checks that S_RESULT and D_FINAL share, as two cases of a statement, and the digest where they pass (R1213, R1222). -/
theorem digest_effect {s : State} {sl : Slot} {a : Alg} {Q : Prop} {o o' : Host.Outcome State Fault Refusal} (hok : SlotOk sl)
    (ho : o = if !slotEn sl a then raised s .notEnabled
      else if a = .aich && sl.total != sl.size then raised s .sizeMismatch else o')
    (hQ : ∀ c, slotCtx sl a = some c → slotDigest sl a = finalCtx a c → (finalCtx a c).length = digestLen a → o = o' → Q) :
    if sl.en.getLsbD (algId a) = false then CompletesKeeping o s .notEnabled {} []
    else if algId a = 16 ∧ sl.total ≠ sl.size then CompletesKeeping o s .sizeMismatch {} [] else Q := by
  refine check_effect ho (by simp [slotEn]) fun hen ho => ?_
  refine check_effect ho (by simp [algId_eq_sixteen_iff]) fun _ ho => ?_
  obtain ⟨c, hc, hdig, hlen⟩ := slotDigest_of_enabled hok (a := a) (by simpa [slotEn] using hen)
  exact hQ c hc hdig hlen ho

/-- The bytes a command reads are no more than the 64-bit counter counts. -/
theorem length_operand_lt (s : State) : (operand s).length < 2 ^ 64 := by
  rw [operand, length_operandBytes]
  have := s.arg0.isLt
  omega

/-- The output of a command that reports a digest is as long as RES0 says, and OLEN counts it. -/
theorem digestLen_lt (a : Alg) : digestLen a < 2 ^ 16 := Nat.lt_of_le_of_lt (digestLen_le a) (by decide)

/-! ## D_INIT as S_NEW (R1220) -/

/-- ARG0 := x. -/
def State.withArg0 (s : State) (x : W32) : State := { s with arg0 := x }

/-- The two commands leave the same state, but for ARG0, which is `x` in the second. -/
def SameButArg0 (x : W32) (o o' : Host.Outcome State Fault Refusal) : Prop := ∃ t, o = .next t ∧ o' = .next (t.withArg0 x)

theorem sameButArg0_complete (x : W32) (s : State) (c : Code) (r : Results) (out : Bytes) :
    SameButArg0 x (.next (s.complete c r out)) (.next ((s.withArg0 x).complete c r out)) := ⟨_, rfl, rfl⟩

/-- The mask 1 << alg in ARG0: its bits 31:17 are zero, and it is D_INIT's. -/
theorem maskOk_withArg0 (s : State) (a : Alg) : maskOk (s.withArg0 (BitVec.ofNat 32 (2 ^ algId a))) = true := by
  have hlt : (BitVec.ofNat 32 (2 ^ algId a)).toNat < 2 ^ 17 := by cases a <;> decide
  rw [maskOk_eq]
  exact decide_eq_true hlt

theorem argMask_withArg0 (s : State) (a : Alg) : argMask (s.withArg0 (BitVec.ofNat 32 (2 ^ algId a))) = oneAlg a := by
  cases a <;> rfl

theorem dInit_sameButArg0 (a : Alg) (sid : Nat) (s : State) : SameButArg0 (BitVec.ofNat 32 (2 ^ algId a))
    (exec (.dInit (algId a) sid) s) (exec (.sNew sid) (s.withArg0 (BitVec.ofNat 32 (2 ^ algId a)))) := by
  have haich : (oneAlg a).getLsbD 16 = decide (a = .aich) :=
    (getLsbD_oneAlg a .aich).trans (decide_eq_decide.2 eq_comm)
  rw [exec, exec, execDInit, execSNew, algOf_algId, maskOk_withArg0, argMask_withArg0, haich, Bool.true_and]
  exact rel_ite (sameButArg0_complete _ _ _ _ _) <| rel_ite (sameButArg0_complete _ _ _ _ _) <|
    rel_ite (sameButArg0_complete _ _ _ _ _) (sameButArg0_complete _ (s.setSlot sid _) _ _ _)

/-! ## A session that passes every check (R1224) -/

section

variable {s : State} {sid : Nat} (hsid : sid < s.params.nsess) (hslots : sid < s.slots.length)

include hsid hslots

/-- D_INIT with SIZE_VALID and a size of 32 bits. -/
theorem dInit_sized (a : Alg) (hflags : s.arg1 = 1) (hhigh : s.arg3 = 0) :
    CompletesSettingSlot (exec (.dInit (algId a) sid) s) s {} [] sid
      (· = newSlot (oneAlg a) true (BitVec.ofNat 64 s.arg2.toNat)) := by
  have hsize : argSize s = BitVec.ofNat 64 s.arg2.toNat := by simp [argSize_eq, hhigh]
  have hexec : exec (.dInit (algId a) sid) s =
      .next ((s.setSlot sid (newSlot (oneAlg a) true (BitVec.ofNat 64 s.arg2.toNat))).complete .ok) := by
    simp [exec, execDInit, sidOk_eq, hsid, flagsOk_eq, sizeValid_eq, hflags, hsize]
  exact hexec ▸ completesSettingSlot_complete {} hslots rfl (by decide)

/-- S_UPDATE of the bytes that the new slot's size declares. -/
theorem sUpdate_declared {a : Alg} {size : W64} (hslot : s.slot sid = newSlot (oneAlg a) true size)
    (hrange : ¬RunsPast s s.arg1 s.arg0) (hsize : size.toNat = s.arg0.toNat) :
    ∃ r, CompletesSettingSlot (exec (.sUpdate sid) s) s r [] sid
      (· = slotUpdate (newSlot (oneAlg a) true size) (operand s)) := by
  have hlt := s.arg0.isLt
  have htotal : (newSlot (oneAlg a) true size).total.toNat = 0 := rfl
  have hdeclared : (newSlot (oneAlg a) true size).size.toNat = s.arg0.toNat := hsize
  rw [exec, execSUpdate, hslot, if_neg (mt not_sidOk_iff.1 (Nat.not_le.2 hsid)), if_neg (mt not_operandOk_iff.1 hrange),
    if_neg (by simp [newSlot]), if_neg (by omega), if_neg (by simp [htotal, hdeclared])]
  exact ⟨_, completesSettingSlot_complete _ hslots rfl (by decide)⟩

/-- D_FINAL once the declared bytes have been absorbed. -/
theorem dFinal_declared {a : Alg} {m : Bytes} (hm : m.length < 2 ^ 64)
    (hslot : s.slot sid = slotUpdate (newSlot (oneAlg a) true (BitVec.ofNat 64 m.length)) m) :
    CompletesSettingSlot (exec (.dFinal (algId a) sid) s) s { r0 := BitVec.ofNat 32 (digestLen a) }
      (digest a m (BitVec.ofNat 64 m.length)) sid (· = { s.slot sid with final := true }) := by
  have hen : slotEn (s.slot sid) a = true := by simp [hslot, getLsbD_oneAlg]
  have hsize : (s.slot sid).total = (s.slot sid).size := by simp [hslot, slotUpdate, newSlot]
  have hdig : slotDigest (s.slot sid) a = digest a m (BitVec.ofNat 64 m.length) := hslot ▸ slotDigest_session a _ m
  have hlen := length_digest a (BitVec.ofNat 64 m.length) hm
  have hexec : exec (.dFinal (algId a) sid) s = .next ((s.setSlot sid { s.slot sid with final := true }).complete .ok
      { r0 := BitVec.ofNat 32 (digestLen a) } (digest a m (BitVec.ofNat 64 m.length))) := by
    simp [exec, execDFinal, sidOk_eq, hsid, hen, hsize, hdig, hlen]
  exact hexec ▸ completesSettingSlot_complete _ hslots rfl (hlen ▸ digestLen_lt a)

end

/-- D_HASH of an admitted operand. -/
theorem dHash_passed {s : State} (a : Alg) (hrange : ¬RunsPast s s.arg1 s.arg0) :
    CompletesUsingScratch (exec (.dHash (algId a)) s) s .ok { r0 := BitVec.ofNat 32 (digestLen a) }
      (digest a (operand s) (BitVec.ofNat 64 s.arg0.toNat)) := by
  have hlen := length_digest a (BitVec.ofNat 64 s.arg0.toNat) (length_operand_lt s)
  have hexec : exec (.dHash (algId a)) s = .next ({ s with scr := some (initCtx a (s.arg0.zeroExtend 64)) }.output
      (digest a (operand s) (s.arg0.zeroExtend 64))) :=
    (onAlg_algId s a _).trans (if_neg (mt not_operandOk_iff.1 hrange))
  rw [hexec, BitVec.zeroExtend, ← BitVec.ofNat_toNat, State.output_eq, hlen]
  exact ⟨_, rfl, completed_complete _ _ _ (hlen ▸ digestLen_lt a), kept_complete _ _ _ _, rfl⟩

/-- Where every byte of an operand has been written, its bytes are those of IBUF, which no command writes, whatever the drawing (R114). -/
theorem operandBytes_of_written {s t : State} {off len : W32} (h : OperandWritten s off len)
    (hibuf : ∀ draw k, ibufByte t draw k = ibufByte s draw k) (draw draw' : Nat) :
    operandBytes t draw off len = operandBytes s draw' off len := by
  refine List.map_congr_left fun i hi => ?_
  obtain ⟨b, hb⟩ := Option.isSome_iff_exists.1 (h i (List.mem_range.1 hi))
  have hbyte : ∀ d, ibufByte s d (off.toNat + i) = b := fun d => by simp [ibufByte, hb]
  rw [hibuf, hbyte, hbyte]

/-- Completions with the same results and output agree in RES0, OLEN and the bytes of OBUF. -/
theorem completed_agree {s s' t t' : State} {c c' : Code} {r : Results} {out : Bytes} (h : Completed s t c r out)
    (h' : Completed s' t' c' r out) :
    t.res0 = t'.res0 ∧ t.olen = t'.olen ∧ ∀ draw k, obufByte t draw k = obufByte t' draw k := by
  obtain ⟨-, hres, -, -, -, holen, hobuf⟩ := h
  obtain ⟨-, hres', -, -, -, holen', hobuf'⟩ := h'
  exact ⟨hres.trans hres'.symm, BitVec.eq_of_toNat_eq (holen.trans holen'.symm),
    fun draw k => (hobuf draw k).trans (hobuf' draw k).symm⟩

theorem code_of_completed {s t : State} {c : Code} {r : Results} {out : Bytes} (h : Completed s t c r out) :
    t.status.code = c := congrArg Status.code h.1

end Sys2Proof.Machine

namespace Sys2Proof.Proofs

open Sys2Proof.Machine Sys2Proof.Safety

/-- Settles O13: NOP is a completion over the state as it is. -/
theorem nopEffect : Obligations.NopEffect :=
  ⟨fieldsChecked .nop, fun s => completesKeeping_complete s .ok {} (by decide)⟩

/-- Settles O14: the checks of S_NEW in order, and the new slot. -/
theorem sNewEffect : Obligations.SNewEffect := by
  refine ⟨fieldsChecked .sNew, fun s sid hlen => ?_⟩
  refine check_effect (o := exec (.sNew sid) s) rfl not_sidOk_iff fun hsid ho => ?_
  refine check_effect ho not_maskOk_and_flagsOk_iff fun hbits ho => ?_
  have hflags : s.arg1.toNat < 2 := by omega
  have hsize : ((argMask s).getLsbD 16 && !sizeValid s) = true ↔ s.arg0.getLsbD 16 = true ∧ s.arg1.toNat = 0 := by
    rw [Bool.and_eq_true, getLsbD_argMask, not_sizeValid_iff hflags]
  refine check_effect ho hsize fun _ ho => ?_
  rw [ho, argMask_eq, sizeValid_of_flags hflags, argSize_eq]
  exact completesSettingSlot_complete {} (by omega) (isNewSlot_newSlot _ _ _) (by decide)

/-- Settles O15: the checks of S_ADD in order, two of which end it with OK or IGNORED, and the added algorithm. -/
theorem sAddEffect : Obligations.SAddEffect := by
  refine ⟨fieldsChecked .sAdd, fun s alg sid hlen hctx => ?_⟩
  refine onAlgOfSlot_effect (o := exec (.sAdd alg sid) s) rfl fun hsid a ha ho => ?_
  subst ha
  refine check_effect ho Iff.rfl fun _ ho => check_effect ho Iff.rfl fun _ ho => check_effect ho Iff.rfl fun _ ho => ?_
  refine check_effect ho (by simp [algId_eq_sixteen_iff]) fun _ ho => ?_
  exact ho ▸ completesSettingSlot_complete {} (by omega) (isAdded_slotAdd hctx a) (by decide)

/-- Settles O16: the checks of S_REMOVE in order, and the removed algorithm. -/
theorem sRemoveEffect : Obligations.SRemoveEffect := by
  refine ⟨fieldsChecked .sRemove, fun s alg sid hlen => ?_⟩
  refine onAlgOfSlot_effect (o := exec (.sRemove alg sid) s) rfl fun hsid a ha ho => ?_
  subst ha
  refine check_effect ho Iff.rfl fun _ ho => check_effect ho Iff.rfl fun _ ho => ?_
  exact ho ▸ completesSettingSlot_complete {} (by omega) (isRemoved_slotRemove _ a) (by decide)

/-- Settles O17: the checks of S_UPDATE in order, then TOTAL does not overflow and is what the results report. -/
theorem sUpdateEffect : Obligations.SUpdateEffect := by
  refine ⟨fieldsChecked .sUpdate, fun s sid hlen => ?_⟩
  refine check_effect (o := exec (.sUpdate sid) s) rfl not_sidOk_iff fun hsid ho => ?_
  refine check_effect ho not_operandOk_iff fun _ ho => check_effect ho Iff.rfl fun _ ho => ?_
  refine check_effect ho Iff.rfl fun hover ho => check_effect ho (by simp [slotEn, algId]) fun _ ho => ?_
  have hlt : (s.slot sid).total.toNat + (operand s).length < 2 ^ 64 := by
    rw [operand, length_operandBytes]; omega
  have htotal := toNat_total_slotUpdate hlt
  rw [operand, length_operandBytes] at htotal
  simp only [ho, lowWord_eq, highWord_eq, htotal]
  exact completesSettingSlot_complete _ (by omega) (isFed_slotUpdate hlt) (by decide)

/-- Settles O18: the checks of S_RESULT in order, and the digest of the context that an enabled algorithm has. -/
theorem sResultEffect : Obligations.SResultEffect := by
  refine ⟨fieldsChecked .sResult, fun s alg sid hok => ?_⟩
  refine onAlgOfSlot_effect (o := exec (.sResult alg sid) s) rfl fun _ a ha ho => ?_
  subst ha
  refine digest_effect hok ho fun c hc hdig hlen ho => ⟨a, c, rfl, hc, hlen, ?_⟩
  rw [ho, hdig, State.output_eq, hlen]
  exact completesKeeping_complete s .ok _ (hlen ▸ digestLen_lt a)

/-- Settles O19: the four words of S_QUERY as numbers. -/
theorem sQueryEffect : Obligations.SQueryEffect := by
  refine ⟨fieldsChecked .sQuery, fun s sid => ?_⟩
  refine check_effect (o := exec (.sQuery sid) s) rfl not_sidOk_iff fun _ ho => ?_
  rw [ho, queryFlags_eq, lowWord_eq, highWord_eq, BitVec.zeroExtend, ← BitVec.ofNat_toNat]
  exact completesKeeping_complete s .ok _ (out := []) (by decide)

/-- Settles O20: the checks of D_INIT in order, and the same checks and slot as S_NEW with the mask of one algorithm. -/
theorem dInitEffect : Obligations.DInitEffect := by
  refine ⟨fieldsChecked .dInit, fun s alg sid hlen => ?_, fun s alg sid halg => ?_⟩
  · refine onAlgOfSlot_effect (o := exec (.dInit alg sid) s) rfl fun hsid a ha ho => ?_
    subst ha
    refine check_effect ho not_flagsOk_iff fun hbits ho => ?_
    have hflags : s.arg1.toNat < 2 := Nat.lt_of_not_le hbits
    have hsize : (decide (a = .aich) && !sizeValid s) = true ↔ algId a = 16 ∧ s.arg1.toNat = 0 := by
      rw [Bool.and_eq_true, decide_eq_true_eq, not_sizeValid_iff hflags, algId_eq_sixteen_iff]
    refine check_effect ho hsize fun _ ho => ?_
    rw [ho, oneAlg_eq, sizeValid_of_flags hflags, argSize_eq]
    exact completesSettingSlot_complete {} (by omega) (isNewSlot_newSlot _ _ _) (by decide)
  · obtain ⟨a, rfl⟩ := exists_algId (Nat.not_le.2 halg)
    exact dInit_sameButArg0 a sid s

/-- Settles O21: the checks of D_FINAL in order, the digest of the context that an enabled algorithm has, and FINAL. -/
theorem dFinalEffect : Obligations.DFinalEffect := by
  refine ⟨fieldsChecked .dFinal, fun s alg sid hslots hok => ?_⟩
  refine onAlgOfSlot_effect (o := exec (.dFinal alg sid) s) rfl fun hsid a ha ho => ?_
  subst ha
  refine digest_effect hok ho fun c hc hdig hlen ho => ⟨a, c, rfl, hc, hlen, ?_⟩
  rw [ho, hdig, State.output_eq, hlen]
  exact completesSettingSlot_complete _ (by omega) rfl (hlen ▸ digestLen_lt a)

/-- Settles O22: the checks of D_HASH in order, and the digest of the operand, which the 64-bit counter can count. -/
theorem dHashEffect : Obligations.DHashEffect := by
  refine ⟨fieldsChecked .dHash, fun s alg => ?_⟩
  refine onAlg_effect (o := exec (.dHash alg) s) rfl fun a ha ho => ?_
  subst ha
  refine check_effect ho not_operandOk_iff fun hrange _ => ⟨a, rfl, dHash_passed a hrange⟩

/-- Settles O23: the session passes every check, AICH's among them because TOTAL ends at the declared size, and both ways the output is the
digest of the operand. -/
theorem dHashEqualsSession : Obligations.DHashEqualsSession := by
  intro s a sid len off hlen hsid hrange hwritten
  have hslots : sid < s.slots.length := hlen ▸ hsid
  obtain ⟨t, hinit, htdone, ⟨hparams, -, -, -, -, -, -, -, hibuf, -⟩, ⟨htlen, -⟩, htslot, -⟩ :=
    dInit_sized (s := { s with arg1 := 1, arg2 := len, arg3 := 0 }) hsid hslots a rfl rfl
  obtain ⟨r, u, hupdate, hudone, ⟨huparams, -⟩, ⟨hulen, -⟩, huslot, -⟩ :=
    sUpdate_declared (s := { t with arg0 := len, arg1 := off }) (hparams ▸ hsid) (htlen ▸ hslots) htslot
      (hparams ▸ hrange) (Nat.mod_eq_of_lt (by have := len.isLt; omega))
  have hm : operand { t with arg0 := len, arg1 := off } = operand { s with arg0 := len, arg1 := off } :=
    operandBytes_of_written hwritten hibuf _ _
  have hmlen : (operand { s with arg0 := len, arg1 := off }).length = len.toNat := length_operandBytes ..
  rw [hm, ← hmlen] at huslot
  obtain ⟨v, hfinal, hvdone, -⟩ := dFinal_declared (huparams ▸ hparams ▸ hsid) (hulen ▸ htlen ▸ hslots)
    (length_operand_lt _) huslot
  obtain ⟨w, hhash, hwdone, -⟩ := dHash_passed (s := { s with arg0 := len, arg1 := off }) a hrange
  rw [hmlen] at hvdone
  exact ⟨t, u, v, w, hinit, code_of_completed htdone, hupdate, code_of_completed hudone, hfinal, code_of_completed hvdone,
    hhash, code_of_completed hwdone, completed_agree hvdone hwdone⟩

end Sys2Proof.Proofs
end

section
/-! SUPPORT. The registry's commands (R1302 to R1306): a search over the algorithms answers the one of the lowest identifier that passes
its test, for the name in R1304 and for the digest in R1305. -/

namespace Sys2Proof.Machine

open Sys2Proof.Safety

/-! ## REG_SIZE and REG_NAME (R1302, R1303) -/

theorem exec_regSize (alg : Nat) (s : State) : exec (.regSize alg) s =
    onAlg alg s fun a => .next (s.complete .ok { r0 := BitVec.ofNat 32 (digestLen a) }) := rfl

theorem exec_regName (alg : Nat) (s : State) : exec (.regName alg) s = onAlg alg s fun a => .next (s.output (algName a)) := rfl

theorem length_algName_lt (a : Alg) : (algName a).length < 2 ^ 16 := Nat.lt_of_le_of_lt (length_algName_le a) (by decide)

/-- A command whose one check is that SEL names an algorithm ends with BAD_ALG from 17 up (R1410 step 4). -/
theorem onAlg_badAlg {alg : Nat} (h : 17 ≤ alg) (s : State) (f : Alg → Host.Outcome State Fault Refusal) :
    CompletesKeeping (onAlg alg s f) s .badAlg {} [] := by
  rw [onAlg_of_le h]
  exact completesKeeping_raised s .badAlg {}

/-! ## The search in identifier order (R1305) -/

theorem algId_lt_length (a : Alg) : algId a < allAlgs.length := algId_lt a

theorem getElem_allAlgs_algId (a : Alg) : allAlgs[algId a]'(algId_lt_length a) = a := by cases a <;> rfl

theorem algId_getElem_allAlgs : ∀ i (h : i < allAlgs.length), algId allAlgs[i] = i := by decide

/-- A search answers the algorithm of the lowest identifier that passes its test. -/
theorem find_allAlgs_eq_some_iff {p : Alg → Bool} {a : Alg} : allAlgs.find? p = some a ↔
    p a = true ∧ ∀ b, algId b < algId a → p b ≠ true := by
  rw [List.find?_eq_some_iff_getElem]
  refine and_congr_right fun _ => ⟨?_, fun h => ?_⟩
  · rintro ⟨i, hi, rfl, hbefore⟩ b hb
    rw [algId_getElem_allAlgs] at hb
    simpa [getElem_allAlgs_algId] using hbefore (algId b) hb
  · refine ⟨algId a, algId_lt_length a, getElem_allAlgs_algId a, fun j hj => ?_⟩
    have hlt := Nat.lt_trans hj (algId_lt_length a)
    simpa using h allAlgs[j] (by rwa [algId_getElem_allAlgs j hlt])

theorem find_allAlgs_eq_none_iff {p : Alg → Bool} : allAlgs.find? p = none ↔ ∀ a, p a ≠ true := by
  rw [List.find?_eq_none]
  exact ⟨fun h a => h a (mem_allAlgs a), fun h a _ => h a⟩

/-! ## REG_FROM_NAME (R1304) -/

/-- The search for an algorithm's canonical name answers the algorithm: no lower identifier has the name (R1300). -/
theorem find_algName (a : Alg) : (allAlgs.find? fun b => algName b == algName a) = some a := by cases a <;> decide

/-- REG_FROM_NAME: its range check, and the answer of the search. -/
theorem exec_regFromName (s : State) : exec .regFromName s =
    if RunsPast s s.arg1 s.arg0 then raised s .badRange
    else .next (s.found ((allAlgs.find? fun a => algName a == operand s).map algId)) := by
  rw [exec, execRegFromName]
  exact ite_congr (propext not_operandOk_iff) (fun _ => rfl) fun _ => rfl

/-! ## Detection of an algorithm (R1305, R1306) -/

/-- The choice of candidates by the digest length drops no algorithm that gives the digest, because every digest has its algorithm's
length (R130). -/
theorem detectAlg_eq_find {m : Bytes} (hm : m.length < 2 ^ 64) (d : Bytes) :
    detectAlg m d = allAlgs.find? fun a => digest a m (BitVec.ofNat 64 m.length) == d := by
  rw [detectAlg, candidates, List.find?_filter]
  congr 1
  funext a
  by_cases hd : digest a m (BitVec.ofNat 64 m.length) = d
  · simp [← hd, length_digest a _ hm]
  · simp [hd]

/-- Detection answers the algorithm of the lowest identifier that gives the digest. -/
theorem detectAlg_eq_some_iff {m : Bytes} (hm : m.length < 2 ^ 64) {d : Bytes} {a : Alg} : detectAlg m d = some a ↔
    digest a m (BitVec.ofNat 64 m.length) = d ∧
      ∀ b, algId b < algId a → digest b m (BitVec.ofNat 64 m.length) ≠ d := by
  simp only [detectAlg_eq_find hm, find_allAlgs_eq_some_iff, beq_iff_eq, ne_eq]

theorem detectAlg_eq_none_iff {m : Bytes} (hm : m.length < 2 ^ 64) {d : Bytes} : detectAlg m d = none ↔
    ∀ a, digest a m (BitVec.ofNat 64 m.length) ≠ d := by
  simp only [detectAlg_eq_find hm, find_allAlgs_eq_none_iff, beq_iff_eq, ne_eq]

/-- MD4 comes right after CRC32 in identifier order, and no CRC32 is as long as an MD4 digest (R130). -/
theorem detectAlg_digest_md4 {m : Bytes} (hm : m.length < 2 ^ 64) :
    detectAlg m (digest .md4 m (BitVec.ofNat 64 m.length)) = some .md4 := by
  refine (detectAlg_eq_some_iff hm).2 ⟨rfl, fun b hb hdig => ?_⟩
  obtain rfl : b = .crc32 := algId_inj (Nat.lt_one_iff.1 hb)
  have hlen := congrArg List.length hdig
  rw [length_digest _ _ hm, length_digest _ _ hm] at hlen
  exact absurd hlen (by decide)

/-- A message of one chunk has its MD4 digest as its ED2K digest (R1105). -/
theorem digest_ed2k_of_length_le {m : Bytes} (size : W64) (hm : m.length ≤ Config.chunkBytes) :
    digest .ed2k m size = digest .md4 m size := by
  rw [digest_ed2k size (Nat.lt_of_le_of_lt hm (by decide)), if_pos hm]
  rfl

/-- The range checks of DETECT_ALG's two operands (R303). -/
theorem not_operandOk_and_operandOk_iff {s : State} {off len off' len' : W32} :
    (!(operandOk s off len && operandOk s off' len')) = true ↔ RunsPast s off len ∨ RunsPast s off' len' := by
  rw [Bool.not_and, Bool.or_eq_true, not_operandOk_iff, not_operandOk_iff]

/-- DETECT_ALG: its range checks, and the answer of the search. -/
theorem exec_detectAlg (s : State) : exec .detectAlg s =
    if RunsPast s s.arg1 s.arg0 ∨ RunsPast s s.arg3 s.arg2 then raised s .badRange
    else .next ({ s with scr := detectScratch s (operand s) (operandBytes s (s.draws + 1) s.arg3 s.arg2) }.found
      ((detectAlg (operand s) (operandBytes s (s.draws + 1) s.arg3 s.arg2)).map algId)) := by
  rw [exec, execDetectAlg]
  exact ite_congr (propext not_operandOk_and_operandOk_iff) (fun _ => rfl) fun _ => rfl

theorem completesUsingScratch_complete (s : State) (x : Option Ctx) (c : Code) (r : Results) {out : Bytes}
    (h : out.length < 2 ^ 16) : CompletesUsingScratch (.next ({ s with scr := x }.complete c r out)) s c r out :=
  ⟨_, rfl, completed_complete { s with scr := x } c r h, kept_complete { s with scr := x } c r out, rfl⟩

end Sys2Proof.Machine

namespace Sys2Proof.Proofs

open Sys2Proof.Machine Sys2Proof.Safety

/-- Settles O40: past the check of SEL the result is the digest length. -/
theorem regSizeEffect : Obligations.RegSizeEffect := by
  refine ⟨fieldsChecked .regSize, fun s _ halg => onAlg_badAlg halg s _, fun s a => ?_⟩
  rw [exec_regSize, onAlg_algId]
  exact completesKeeping_complete s .ok _ (by decide)

/-- Settles O41: past the check of SEL the output is the name, which OLEN can count. -/
theorem regNameEffect : Obligations.RegNameEffect := by
  refine ⟨fieldsChecked .regName, fun s _ halg => onAlg_badAlg halg s _, fun s a => ?_⟩
  rw [exec_regName, onAlg_algId, State.output_eq]
  exact completesKeeping_complete s .ok _ (length_algName_lt a)

/-- Settles O42: names are distinct, so the search finds the algorithm whose name the operand is. -/
theorem regFromNameEffect : Obligations.RegFromNameEffect := by
  refine ⟨fieldsChecked .regFromName, fun s => ⟨fun hrange => ?_, fun hrange => ⟨fun a ha => ?_, fun hnone => ?_⟩⟩⟩
  · rw [exec_regFromName, if_pos hrange]
    exact completesKeeping_raised s .badRange {}
  · rw [exec_regFromName, if_neg hrange, ← ha, find_algName a]
    exact completesKeeping_complete s .ok _ (by decide)
  · have hfind : (allAlgs.find? fun a => algName a == operand s) = none :=
      find_allAlgs_eq_none_iff.2 fun a => mt eq_of_beq (hnone a)
    rw [exec_regFromName, if_neg hrange, hfind]
    exact completesKeeping_complete s .notFound _ (by decide)

/-- Settles O43: the answer of DETECT_ALG is that of the search in identifier order. -/
theorem detectAlgEffect : Obligations.DetectAlgEffect := by
  refine ⟨fieldsChecked .detectAlg, fun s => ⟨fun hrange => ?_, fun hrange => ⟨fun a ha hbefore => ?_, fun hnone => ?_⟩⟩⟩
  · rw [exec_detectAlg, if_pos hrange]
    exact completesKeeping_raised s .badRange {}
  · rw [exec_detectAlg, if_neg hrange, (detectAlg_eq_some_iff (length_operand_lt s)).2 ⟨ha, hbefore⟩]
    exact completesUsingScratch_complete s _ .ok _ (by decide)
  · rw [exec_detectAlg, if_neg hrange, (detectAlg_eq_none_iff (length_operand_lt s)).2 hnone]
    exact completesUsingScratch_complete s _ .notFound _ (by decide)

/-- Settles O44: the search does not fail, as the algorithm of the digest passes its test, and does not pass over it; ED2K's digest of one
chunk is MD4's, which only CRC32 precedes. -/
theorem detectionFinds : Obligations.DetectionFinds := by
  refine ⟨fun a m hm => ?_, fun m hm => ?_⟩
  · obtain ⟨b, hb⟩ := Option.ne_none_iff_exists'.1 fun hnone => (detectAlg_eq_none_iff hm).1 hnone a rfl
    obtain ⟨hdig, hbefore⟩ := (detectAlg_eq_some_iff hm).1 hb
    exact ⟨b, hb, Nat.le_of_not_lt fun hlt => hbefore a hlt rfl, hdig⟩
  · rw [digest_ed2k_of_length_le _ hm]
    exact detectAlg_digest_md4 (Nat.lt_of_le_of_lt hm (by decide))

end Sys2Proof.Proofs
end

section
/-! SUPPORT. The order of the checks of a command (R1410), for all commands at once: a list of checks of which the first that fails gives
the code, and how a command ends that passes them all; and what an error completion leaves (R1404). -/

namespace Sys2Proof.Machine

open Sys2Proof.Safety

/-! ## Past the checks (R1410 steps 7 and 8) -/

/-- The codes of an error past steps 1 to 6: a late code, or the BAD_RANGE of ENCODE's second range check, which no parameters of R9
reach (R10, R420). -/
def LateError (s : State) (c : Code) : Prop := c ∈ lateCodes ∨ (c = .badRange ∧ ¬s.params.wf)

/-- The outcome `o` of a command that has passed steps 1 to 6 in `s`: it completes without an error, or raises a late error, with a
result only in RES1 and only for PARSE (R1404). -/
def EndsLate (s : State) (o : Host.Outcome State Fault Refusal) : Prop :=
  (∃ t, o = .next t ∧ codeIsError t.status.code = false) ∨
  ∃ c x, o = raised s c { r1 := x } ∧ LateError s c ∧ (c ≠ .parse → x = 0)

theorem EndsLate.next {s t : State} (h : codeIsError t.status.code = false) : EndsLate s (.next t) := .inl ⟨t, rfl, h⟩

theorem EndsLate.raised {s : State} {c : Code} (h : c ∈ lateCodes) : EndsLate s (raised s c) :=
  .inr ⟨c, 0, rfl, .inl h, fun _ => rfl⟩

theorem EndsLate.ite {s : State} {p : Prop} [Decidable p] {o o' : Host.Outcome State Fault Refusal} (h : EndsLate s o)
    (h' : EndsLate s o') : EndsLate s (if p then o else o') := by
  split
  · exact h
  · exact h'

/-- The answer of a search is no error (R1401). -/
theorem EndsLate.found (s u : State) (n : Option Nat) : EndsLate s (.next (u.found n)) := by
  cases n with
  | none => exact .next rfl
  | some n => exact .next rfl

/-- The codes below 0x10 are late codes (R1400, R1401). -/
theorem mem_lateCodes_of_success {c : Code} (h : codeIsError c = false) : c ∈ lateCodes := by
  revert h
  cases c <;> decide

/-- With the parameters of R9 a command that has passed steps 1 to 6 ends with a late code. -/
theorem EndsLate.lateCode {s : State} {o : Host.Outcome State Fault Refusal} (h : EndsLate s o) (hp : s.params.wf) :
    ∃ t, o = .next t ∧ t.status.code ∈ lateCodes := by
  obtain ⟨t, rfl, hok⟩ | ⟨c, x, rfl, hlate | ⟨-, hsmall⟩, -⟩ := h
  · exact ⟨t, rfl, mem_lateCodes_of_success hok⟩
  · exact ⟨_, rfl, hlate⟩
  · exact absurd hp hsmall

/-! ## A list of checks -/

/-- The checks `cs` are made in order in `s`: the first that fails gives its code and has no other effect, and where all pass the outcome
`o` is that of a command past its checks. -/
def ChecksInOrder (s : State) : List (Prop × Code) → Host.Outcome State Fault Refusal → Prop
  | [], o => EndsLate s o
  | (p, c) :: cs, o => (p → CompletesKeeping o s c {} []) ∧ (¬p → ChecksInOrder s cs o)

section
variable {s : State} {p : Prop} {c : Code} {cs : List (Prop × Code)} {o : Host.Outcome State Fault Refusal}

theorem ChecksInOrder.skip (hp : ¬p) (h : ChecksInOrder s cs o) : ChecksInOrder s ((p, c) :: cs) o :=
  ⟨fun hfail => absurd hfail hp, fun _ => h⟩

theorem ChecksInOrder.check {q : Prop} [Decidable q] (hqp : q ↔ p) (h : ¬p → ChecksInOrder s cs o) :
    ChecksInOrder s ((p, c) :: cs) (if q then raised s c else o) := by
  refine ⟨fun hfail => ?_, fun hpass => ?_⟩
  · rw [if_pos (hqp.2 hfail)]
    exact completesKeeping_raised s c {}
  · rw [if_neg (mt hqp.1 hpass)]
    exact h hpass

/-- A check of a field that the opcode does not use is none (R310). -/
theorem ChecksInOrder.skipField {used : Bool} (hused : used = false) (h : ChecksInOrder s cs o) :
    ChecksInOrder s ((used = true ∧ p, c) :: cs) o :=
  .skip (fun hfail => by simp [hused] at hfail) h

theorem ChecksInOrder.checkField {used : Bool} (hused : used = true) {q : Prop} [Decidable q] (hqp : q ↔ p)
    (h : ChecksInOrder s cs o) : ChecksInOrder s ((used = true ∧ p, c) :: cs) (if q then raised s c else o) :=
  .check (by simp [hused, hqp]) fun _ => h

/-- The operand checks of a command that reads no operand. -/
theorem ChecksInOrder.noOperand {c' : Code} (h : EndsLate s o) : ChecksInOrder s [(False, c), (False, c')] o :=
  .skip id (.skip id h)

/-- A command ends with the code of a check that fails, or as a command past its checks does. -/
theorem ChecksInOrder.ends (h : ChecksInOrder s cs o) : (∃ c, CompletesKeeping o s c {} []) ∨ EndsLate s o := by
  induction cs with
  | nil => exact .inr h
  | cons check cs ih =>
    obtain ⟨p, c⟩ := check
    obtain ⟨hfail, hpass⟩ := h
    by_cases hp : p
    · exact .inl ⟨c, hfail hp⟩
    · exact ih (hpass hp)

end

/-! ## The checks of a command (R1410 steps 3 to 6) -/

/-- Steps 5 and 6: the must-be-zero bits of the ARG operands, and the ranges of the IBUF operands. -/
def operandChecks (op : Op) (s : State) : List (Prop × Code) :=
  [(argBitsBad op s, .badField), (operandsBad op s, .badRange)]

/-- Steps 3 to 6: the range of SID, the range of SEL, and the operands. -/
def checksOf (op : Op) (sel sid : Nat) (s : State) : List (Prop × Code) :=
  (opUsesSid op = true ∧ s.params.nsess ≤ sid, .badSid) :: (namesAlg op = true ∧ 17 ≤ sel, .badAlg) ::
    (namesEnc op = true ∧ 6 ≤ sel, .badEnc) :: operandChecks op s

section
variable {op : Op} {sel sid : Nat} {s : State} {o : Host.Outcome State Fault Refusal}
  {f : Alg → Host.Outcome State Fault Refusal}

/-- The check of SEL as an algorithm. -/
theorem ChecksInOrder.checkAlg {cs : List (Prop × Code)} (halg : namesAlg op = true)
    (h : ∀ a, ChecksInOrder s cs (f a)) :
    ChecksInOrder s ((namesAlg op = true ∧ 17 ≤ sel, .badAlg) :: cs) (onAlg sel s f) := by
  refine ⟨fun ⟨_, hsel⟩ => onAlg_badAlg hsel s f, fun hpass => ?_⟩
  obtain ⟨a, rfl⟩ := exists_algId fun hsel => hpass ⟨halg, hsel⟩
  rw [onAlg_algId]
  exact h a

/-- A command with a SID and an algorithm. -/
theorem checksInOrder_algOfSlot (ho : o = onAlgOfSlot sel sid s f) (hsid : opUsesSid op = true) (halg : namesAlg op = true)
    (henc : namesEnc op = false) (h : ∀ a, ChecksInOrder s (operandChecks op s) (f a)) :
    ChecksInOrder s (checksOf op sel sid s) o :=
  ho ▸ .checkField hsid not_sidOk_iff (.checkAlg halg fun a => .skipField henc (h a))

/-- A command with a SID and no SEL. -/
theorem checksInOrder_slot {o' : Host.Outcome State Fault Refusal} (ho : o = if !sidOk s sid then raised s .badSid else o')
    (hsid : opUsesSid op = true) (halg : namesAlg op = false) (henc : namesEnc op = false)
    (h : ChecksInOrder s (operandChecks op s) o') : ChecksInOrder s (checksOf op sel sid s) o :=
  ho ▸ .checkField hsid not_sidOk_iff (.skipField halg (.skipField henc h))

/-- A command with an algorithm and no SID. -/
theorem checksInOrder_alg (ho : o = onAlg sel s f) (hsid : opUsesSid op = false) (halg : namesAlg op = true)
    (henc : namesEnc op = false) (h : ∀ a, ChecksInOrder s (operandChecks op s) (f a)) :
    ChecksInOrder s (checksOf op sel sid s) o :=
  ho ▸ .skipField hsid (.checkAlg halg fun a => .skipField henc (h a))

/-- A command with an encoding. -/
theorem checksInOrder_enc (hbad : 6 ≤ sel → o = raised s .badEnc) (hsid : opUsesSid op = false)
    (halg : namesAlg op = false) (henc : namesEnc op = true)
    (h : ∀ e, encId e = sel → ChecksInOrder s (operandChecks op s) o) : ChecksInOrder s (checksOf op sel sid s) o := by
  refine .skipField hsid (.skipField halg ⟨fun ⟨_, hsel⟩ => hbad hsel ▸ completesKeeping_raised s .badEnc {}, fun hpass => ?_⟩)
  obtain ⟨e, he⟩ := exists_encId fun hsel => hpass ⟨henc, hsel⟩
  exact h e he

/-- A command with neither SID nor SEL. -/
theorem checksInOrder_noField (hsid : opUsesSid op = false) (halg : namesAlg op = false) (henc : namesEnc op = false)
    (h : ChecksInOrder s (operandChecks op s) o) : ChecksInOrder s (checksOf op sel sid s) o :=
  .skipField hsid (.skipField halg (.skipField henc h))

end

/-! ## Past the checks, command by command -/

theorem encode_endsLate (e : Enc) {s : State} (h : ¬RunsPast s s.arg1 s.arg0) :
    EndsLate s (if s.params.obufSize < (encodeText e (operand s)).length then raised s .badRange
      else .next (s.output (encodeText e (operand s)))) := by
  split
  next hlong =>
    have hsmall : ¬s.params.wf := fun hp => by
      obtain ⟨-, -, -, hfits⟩ := Proofs.encodeFits
      exact absurd (hfits s.params e (operand s) hp (length_operand_le h)) (Nat.not_le.2 hlong)
    exact .inr ⟨.badRange, 0, rfl, .inr ⟨rfl, hsmall⟩, fun _ => rfl⟩
  next => exact .next rfl

theorem decode_endsLate (e : Enc) {s : State} (h : ¬RunsPast s s.arg1 s.arg0) :
    EndsLate s (exec (.decode (encId e)) s) := by
  cases hdec : decodeText e (operand s) with
  | parse pos =>
    exact .inr ⟨.parse, _, exec_decode_parse h hdec, .inl (by decide), fun hne => absurd rfl hne⟩
  | ok out used => exact exec_decode_ok h hdec ▸ .next rfl

/-- Steps 3 to 8 of R1410 for every command: its checks in the order of the rule, and then a late code. -/
theorem checksInOrder_exec (op : Op) (sel sid : Nat) (s : State) :
    ChecksInOrder s (checksOf op sel sid s) (exec (instrOf sel sid op) s) := by
  cases op with
  | nop => exact checksInOrder_noField rfl rfl rfl (.noOperand (.next rfl))
  | sNew =>
    refine checksInOrder_slot rfl rfl rfl rfl (.check not_maskOk_and_flagsOk_iff fun _ => .skip id ?_)
    exact .ite (.raised (by decide)) (.next rfl)
  | sAdd =>
    refine checksInOrder_algOfSlot rfl rfl rfl rfl fun a => .noOperand ?_
    exact .ite (.raised (by decide)) (.ite (.next rfl) (.ite (.next rfl) (.ite (.raised (by decide)) (.next rfl))))
  | sRemove =>
    refine checksInOrder_algOfSlot rfl rfl rfl rfl fun a => .noOperand ?_
    exact .ite (.raised (by decide)) (.ite (.next rfl) (.next rfl))
  | sUpdate =>
    refine checksInOrder_slot rfl rfl rfl rfl (.skip id (.check not_operandOk_iff fun _ => ?_))
    exact .ite (.raised (by decide)) (.ite (.raised (by decide)) (.ite (.raised (by decide)) (.next rfl)))
  | sResult =>
    refine checksInOrder_algOfSlot rfl rfl rfl rfl fun a => .noOperand ?_
    exact .ite (.raised (by decide)) (.ite (.raised (by decide)) (.next rfl))
  | sQuery => exact checksInOrder_slot rfl rfl rfl rfl (.noOperand (.next rfl))
  | dInit =>
    refine checksInOrder_algOfSlot rfl rfl rfl rfl fun a => .check not_flagsOk_iff fun _ => .skip id ?_
    exact .ite (.raised (by decide)) (.next rfl)
  | dFinal =>
    refine checksInOrder_algOfSlot rfl rfl rfl rfl fun a => .noOperand ?_
    exact .ite (.raised (by decide)) (.ite (.raised (by decide)) (.next rfl))
  | dHash =>
    exact checksInOrder_alg rfl rfl rfl rfl fun a => .skip id (.check not_operandOk_iff fun _ => .next rfl)
  | encode =>
    refine checksInOrder_enc (exec_encode_badEnc · s) rfl rfl rfl ?_
    rintro e rfl
    rw [instrOf, exec_encode_encId]
    exact .skip id (.check Iff.rfl (encode_endsLate e))
  | decode =>
    refine checksInOrder_enc (exec_decode_badEnc · s) rfl rfl rfl ?_
    rintro e rfl
    exact .skip id ⟨fun hrange => exec_decode_badRange e hrange ▸ completesKeeping_raised s .badRange {}, decode_endsLate e⟩
  | detectEnc =>
    refine checksInOrder_noField rfl rfl rfl ?_
    rw [instrOf, exec_detectEnc]
    exact .skip id (.check Iff.rfl fun _ => .found s s _)
  | regSize => exact checksInOrder_alg rfl rfl rfl rfl fun a => .noOperand (.next rfl)
  | regName => exact checksInOrder_alg rfl rfl rfl rfl fun a => .noOperand (.next rfl)
  | regFromName =>
    refine checksInOrder_noField rfl rfl rfl ?_
    rw [instrOf, exec_regFromName]
    exact .skip id (.check Iff.rfl fun _ => .found s s _)
  | detectAlg =>
    refine checksInOrder_noField rfl rfl rfl ?_
    rw [instrOf, exec_detectAlg]
    exact .skip id (.check Iff.rfl fun _ => .found s _ _)

/-! ## The latched word (R1410 steps 1 and 2) -/

/-- A row's word whose must-be-zero fields are zero runs its command. -/
theorem runCommand_of_fieldsOk {s : State} {op : Op} (hop : opField s.pcmd = opNat op) (hok : fieldsOk op s.pcmd = true) :
    runCommand s = exec (instrOf (selField s.pcmd) (sidField s.pcmd) op) s :=
  runCommand_of_decode_ok (decode_eq_ok_iff.2 (by simp only [opOf_instrOf, hop, hok, and_self]))

theorem checksInOrder_runCommand {s : State} {op : Op} (hop : opField s.pcmd = opNat op)
    (hok : fieldsOk op s.pcmd = true) :
    ChecksInOrder s (checksOf op (selField s.pcmd) (sidField s.pcmd) s) (runCommand s) :=
  runCommand_of_fieldsOk hop hok ▸ checksInOrder_exec op _ _ s

/-- The check of step 2, as the statements put it (R313). -/
theorem fieldsOk_of_not_bad {op : Op} {w : W32} (h : ¬(rsvField w ≠ 0 ∨ (opUsesSel op = false ∧ selField w ≠ 0) ∨
    (opUsesSid op = false ∧ sidField w ≠ 0))) : fieldsOk op w = true := by
  obtain ⟨hrsv, hrest⟩ := not_or.1 h
  obtain ⟨hsel, hsid⟩ := not_or.1 hrest
  refine fieldsOk_iff.2 ⟨?_, ?_, not_not.1 hrsv⟩
  · exact or_iff_not_imp_left.2 fun hunused => not_not.1 fun hne => hsel ⟨by simpa using hunused, hne⟩
  · exact or_iff_not_imp_left.2 fun hunused => not_not.1 fun hne => hsid ⟨by simpa using hunused, hne⟩

/-- SEL names an encoding or an algorithm, not both (R310). -/
theorem namesAlg_eq_false_of_namesEnc {op : Op} (h : namesEnc op = true) : namesAlg op = false := by
  revert h
  cases op <;> decide

/-! ## Error completions (R1404) -/

/-- A command that does not end without an error changes nothing but what a completion without output writes, with a result only in RES1
and only for PARSE. -/
theorem runCommand_succeeds_or_fails (s : State) : (∃ t, runCommand s = .next t ∧ codeIsError t.status.code = false) ∨
    ∃ c x, CompletesKeeping (runCommand s) s c { r1 := x } [] ∧ (c ≠ .parse → x = 0) := by
  cases hdec : Sys2Proof.decode s.pcmd with
  | error e =>
    rw [runCommand_of_decode_error hdec]
    exact .inr ⟨_, 0, completesKeeping_complete s _ {} (by decide), fun _ => rfl⟩
  | ok i =>
    rw [runCommand_of_decode_ok hdec, ← instrOf_selOf_sidOf i]
    obtain ⟨c, hfail⟩ | hok | ⟨c, x, hraised, -, hx⟩ := (checksInOrder_exec (opOf i) (selOf i) (sidOf i) s).ends
    · exact .inr ⟨c, 0, hfail, fun _ => rfl⟩
    · exact .inl hok
    · exact .inr ⟨c, x, hraised ▸ completesKeeping_raised s c _, hx⟩

end Sys2Proof.Machine

namespace Sys2Proof.Proofs

open Sys2Proof.Machine Sys2Proof.Safety

/-- Settles O8: the command's step completes it, and an access without a target sets AERR. -/
theorem everyCommandCompletes : Obligations.EveryCommandCompletes := by
  refine ⟨fun s hbusy hwait => ?_, fun s off w v hno => ?_⟩
  · obtain ⟨t, c, ht, hstatus, -⟩ := runCommand_completes s
    exact ⟨t, c, (step_command hbusy hwait).trans ht, hstatus⟩
  · obtain ⟨hreg, hibuf⟩ := not_or.1 hno
    refine ⟨congrArg State.status (hostWrite_refused v hreg hibuf), fun hobuf => ?_⟩
    have hnone : ¬(RegAccess off.toNat w ∨ IbufAccess s.params off.toNat w ∨ ObufAccess s.params off.toNat w) :=
      not_or.2 ⟨hreg, not_or.2 ⟨hibuf, hobuf⟩⟩
    exact congrArg State.status (hostRead_refused (targetOf_eq_none.2 hnone))

/-- Settles O9: the decoder makes the checks of the word, and every command makes the others in the order of the rule. -/
theorem checkOrder : Obligations.CheckOrder := by
  intro s hp
  cases hrow : opOfNat (opField s.pcmd) with
  | none =>
    have hdec : Sys2Proof.decode s.pcmd = .error .badOpcode := by rw [decode_eq, hrow]
    exact runCommand_of_decode_error hdec ▸ completesKeeping_complete s .badOpcode {} (by decide)
  | some op =>
    have hop := opOfNat_eq_some_iff.1 hrow
    refine ⟨fieldsChecked op s hop, fun hfields => ?_⟩
    obtain ⟨hbadSid, hafterSid⟩ := checksInOrder_runCommand hop (fieldsOk_of_not_bad hfields)
    refine ⟨hbadSid, fun hsid => ?_⟩
    obtain ⟨hbadAlg, hafterAlg⟩ := hafterSid hsid
    have hnotAlg : namesEnc op = true → ¬(namesAlg op = true ∧ 17 ≤ selField s.pcmd) := fun henc => by
      simp [namesAlg_eq_false_of_namesEnc henc]
    refine ⟨hbadAlg, fun hbad => (hafterAlg (hnotAlg hbad.1)).1 hbad, fun ⟨halg, henc⟩ => ?_⟩
    obtain ⟨hbadBits, hafterBits⟩ := (hafterAlg halg).2 henc
    exact ⟨hbadBits, fun hbits => (hafterBits hbits).1, fun hbits hrange => ((hafterBits hbits).2 hrange).lateCode hp⟩

/-- Settles O10: each example is the first check that fails for its word. -/
theorem checkOrderExamples : Obligations.CheckOrderExamples := by
  intro s hp
  refine ⟨fun hw => ?_, fun hw => ?_, fun hnsess hw => ?_, fun hw => ?_, fun sid hsid _ hrange => ?_⟩
  · exact fieldsChecked .sUpdate s (by rw [hw]; rfl) (.inl (by rw [hw]; decide))
  · have hsid : ¬(opUsesSid .sResult = true ∧ s.params.nsess ≤ sidField s.pcmd) := by
      have hzero : sidField s.pcmd = 0 := by rw [hw]; rfl
      omega
    have hchecks := checksInOrder_runCommand (op := .sResult) (by rw [hw]; rfl) (by rw [hw]; rfl)
    exact (hchecks.2 hsid).1 ⟨rfl, by rw [hw]; decide⟩
  · have hchecks := checksInOrder_runCommand (op := .sResult) (by rw [hw]; rfl) (by rw [hw]; rfl)
    exact hchecks.1 ⟨rfl, by rw [hnsess, hw]; decide⟩
  · exact reservedOpcodes.1 s (by rw [hw]; decide)
  · have hexec : exec (.sUpdate sid) s = raised s .badRange :=
      (if_neg (mt not_sidOk_iff.1 (Nat.not_le.2 hsid))).trans (if_pos (not_operandOk_iff.2 hrange))
    exact hexec ▸ completesKeeping_raised s .badRange {}

/-- Settles O11: a step that completes a command with an error is a completion without output over the state as it is. -/
theorem failureAtomicity : Obligations.FailureAtomicity := by
  rintro s t ⟨hbusy, hwait, hstep⟩ herror
  rw [step_command hbusy hwait] at hstep
  obtain ⟨u, hu, hok⟩ | ⟨c, x, ⟨u, hu, hdone, hkept, hslots, hscr⟩, hx⟩ := runCommand_succeeds_or_fails s
  · obtain rfl := Host.Outcome.next.inj (hstep.symm.trans hu)
    rw [herror] at hok
    cases hok
  · obtain rfl := Host.Outcome.next.inj (hstep.symm.trans hu)
    obtain rfl : t.status.code = c := code_of_completed hdone
    obtain ⟨hstatus, hres0, hres1, hres2, hres3, holen, hobuf⟩ := hdone
    refine ⟨hslots, hscr, hkept, hres0, hres2, hres3, fun hparse => hres1.trans (hx hparse),
      BitVec.eq_of_toNat_eq holen, hobuf, ?_⟩
    rwa [herror, Bool.or_true] at hstatus

end Sys2Proof.Proofs
end

section
/-! SUPPORT. What a step does to IRQEN, and what lets the interrupt line fall (R111, R1420). -/

namespace Sys2Proof.Machine

open Sys2Proof.Safety

/-! ## IRQEN (R111) -/

/-- IRQEN.DONE_IE and IRQEN.ERR_IE. -/
structure Enables where
  doneIe : Bool
  errIe : Bool

def State.enables (s : State) : Enables := { doneIe := s.doneIe, errIe := s.errIe }

/-- What an event of the host does to the enables: it keeps them, or resets the machine, or writes IRQEN. -/
def EnablesAfter (e : HostEvent) (s t : State) : Prop :=
  t.enables = s.enables ∨ IsReset e ∨
    ∃ v : W32, IsRegWrite e 0x038 v ∧ t.enables = { doneIe := v.getLsbD 0, errIe := v.getLsbD 1 }

theorem hostRead_enables (s : State) (off : Nat) (w : Width) : (hostRead s off w).enables = s.enables := by
  unfold hostRead
  split <;> rfl

theorem unlessBusy_enables {s t : State} (h : t.enables = s.enables) : (unlessBusy s t).enables = s.enables := by
  unfold unlessBusy
  split
  · rfl
  · exact h

theorem enablesAfter_writeReg (s : State) {off : BitVec 14} {i : Nat} (v : W32) (hoff : off.toNat = 4 * i) :
    EnablesAfter (.write off .w32 v) s (writeReg s i v) := by
  unfold writeReg
  split
  next => exact .inl (unlessBusy_enables rfl)
  next => exact .inl rfl
  next => exact .inl (unlessBusy_enables rfl)
  next => exact .inl (unlessBusy_enables rfl)
  next => exact .inl (unlessBusy_enables rfl)
  next => exact .inl (unlessBusy_enables rfl)
  next => exact .inr (.inr ⟨v, ⟨off, rfl, hoff⟩, rfl⟩)
  next =>
    split
    next hbit => exact .inr (.inl (.inr ⟨v, ⟨off, rfl, hoff⟩, hbit⟩))
    next => exact .inl rfl
  next => exact .inl rfl

theorem enablesAfter_hostWrite (s : State) (off : BitVec 14) (w : Width) (v : W32) :
    EnablesAfter (.write off w v) s (hostWrite s off.toNat w v) := by
  unfold hostWrite
  cases htarget : targetOf s.params off.toNat w with
  | reg i =>
    obtain ⟨rfl, hoff, -⟩ := targetOf_eq_reg.1 htarget
    exact enablesAfter_writeReg s v hoff
  | ibuf k => exact .inl (unlessBusy_enables rfl)
  | obuf k => exact .inl rfl
  | none => exact .inl rfl

theorem enablesAfter_hostEvent (s : State) (e : HostEvent) : EnablesAfter e s (hostEvent s e) := by
  cases e with
  | idle => exact .inl rfl
  | read off w => exact .inl (hostRead_enables s _ w)
  | write off w v => exact enablesAfter_hostWrite s off w v
  | waitIdle => exact .inl (hostRead_enables s _ .w32)
  | hardReset => exact .inr (.inl (.inl rfl))

/-- No command writes IRQEN (R111). -/
theorem runCommand_enables {s t : State} (h : runCommand s = .next t) : t.enables = s.enables := by
  cases hdec : Sys2Proof.decode s.pcmd with
  | error e =>
    rw [runCommand_of_decode_error hdec] at h
    exact Host.Outcome.next.inj h ▸ rfl
  | ok i =>
    obtain ⟨u, hu, hshape⟩ := exec_shape i s
    rw [runCommand_of_decode_ok hdec, hu] at h
    obtain rfl := Host.Outcome.next.inj h
    obtain ⟨c, r, out, rfl⟩ | ⟨sl, r, out, rfl⟩ | ⟨x, c, r, out, rfl, -⟩ := hshape
    · rfl
    · rfl
    · rfl

@[simp] theorem tick_enables (s : State) : (tick s).enables = s.enables := by
  unfold tick
  split <;> rfl

/-- A step that changes the enables is a reset, or a write of IRQEN, by the host. -/
theorem step_enables {s t : State} (h : step s = .next t) :
    t.enables = s.enables ∨ ∃ e, eventOf s = some e ∧ EnablesAfter e s t := by
  by_cases hcore : s.status.busy = true ∧ s.wait = 0
  · obtain ⟨hbusy, hwait⟩ := hcore
    exact .inl (runCommand_enables (step_command hbusy hwait ▸ h))
  · cases hq : s.hostQueue with
    | nil =>
      rw [step_noEvent hcore hq] at h
      exact .inl (Host.Outcome.next.inj h ▸ tick_enables s)
    | cons e rest =>
      rw [step_event hcore hq] at h
      obtain rfl := Host.Outcome.next.inj h
      refine .inr ⟨e, by rw [eventOf, if_neg hcore, hq, List.head?_cons], ?_⟩
      have hafter := enablesAfter_hostEvent { tick s with hostQueue := eventsAfter s.status.busy e rest } e
      have htick : ({ tick s with hostQueue := eventsAfter s.status.busy e rest } : State).enables = s.enables := tick_enables s
      rwa [EnablesAfter, htick] at hafter

/-- An enable that a write of IRQEN sets to bit `n` falls by a reset or by a write with that bit 0 only. -/
theorem disabled_by_host {enable : Enables → Bool} {n : Nat}
    (hwrite : ∀ v : W32, enable { doneIe := v.getLsbD 0, errIe := v.getLsbD 1 } = v.getLsbD n)
    {s t : State} (h : step s = .next t) (hs : enable s.enables = true) (ht : enable t.enables = false) :
    ∃ e, eventOf s = some e ∧ (IsReset e ∨ ∃ v, IsRegWrite e 0x038 v ∧ v.getLsbD n = false) := by
  have hfell : t.enables ≠ s.enables := fun hkept => by simp [hkept, hs] at ht
  obtain hkept | ⟨e, he, hkept | hreset | ⟨v, hv, hirqen⟩⟩ := step_enables h
  · exact absurd hkept hfell
  · exact absurd hkept hfell
  · exact ⟨e, he, .inl hreset⟩
  · exact ⟨e, he, .inr ⟨v, hv, by rw [← hwrite, ← hirqen, ht]⟩⟩

/-! ## The interrupt line (R1420) -/

theorem irqLine_eq_true_iff {s : State} : irqLine s = true ↔
    (s.status.done = true ∧ s.doneIe = true) ∨ (s.status.err = true ∧ s.errIe = true) := by
  simp [irqLine]

theorem irqLine_eq_false_iff {s : State} : irqLine s = false ↔
    (s.status.done = false ∨ s.doneIe = false) ∧ (s.status.err = false ∨ s.errIe = false) := by
  rw [irqLine, Bool.or_eq_false_iff, Bool.and_eq_false_iff, Bool.and_eq_false_iff]

end Sys2Proof.Machine

namespace Sys2Proof.Proofs

open Sys2Proof.Machine Sys2Proof.Safety

/-- Settles O55: the flag and the enable of a driver are both 1, and the line falls only when one of the two does. -/
theorem interruptLine : Obligations.InterruptLine := by
  refine ⟨fun s => irqLine_eq_true_iff, fun s t hstep hs ht => ?_⟩
  obtain ⟨hdoneFell, herrFell⟩ := irqLine_eq_false_iff.1 ht
  rcases irqLine_eq_true_iff.1 hs with ⟨hdone, hie⟩ | ⟨herr, hie⟩
  · rcases hdoneFell with hfell | hfell
    · obtain ⟨e, he, hcause⟩ := cleared_by_host FlagsKept.done statusWrite_done hstep hdone hfell
      exact ⟨e, he, hcause.imp_right fun hclear => .inl ⟨hdone, hie, hclear⟩⟩
    · obtain ⟨e, he, hcause⟩ := disabled_by_host (enable := Enables.doneIe) (fun _ => rfl) hstep hie hfell
      exact ⟨e, he, hcause.imp_right fun ⟨v, hv, hbit⟩ => .inr (.inr ⟨v, hv, .inl ⟨hdone, hie, hbit⟩⟩)⟩
  · rcases herrFell with hfell | hfell
    · obtain ⟨e, he, hcause⟩ := cleared_by_host FlagsKept.err statusWrite_err hstep herr hfell
      exact ⟨e, he, hcause.imp_right fun hclear => .inr (.inl ⟨herr, hie, hclear⟩)⟩
    · obtain ⟨e, he, hcause⟩ := disabled_by_host (enable := Enables.errIe) (fun _ => rfl) hstep hie hfell
      exact ⟨e, he, hcause.imp_right fun ⟨v, hv, hbit⟩ => .inr (.inr ⟨v, hv, .inr ⟨herr, hie, hbit⟩⟩)⟩

end Sys2Proof.Proofs
end

section
/-! SUPPORT. The time of a running command: every step has a successor, and one that does not end the command takes one from its time
(R1513). -/

namespace Sys2Proof.Machine

/-- No step ends in a fault or a refusal: a command completes, and an event of the host is performed. -/
theorem step_isNext (s : State) : ∃ t, step s = .next t := by
  rw [step_eq]
  split
  · obtain ⟨t, -, ht, -⟩ := runCommand_completes s
    exact ⟨t, ht⟩
  · exact ⟨_, rfl⟩

theorem wait_of_step_busy {s t : State} (hbusy : s.status.busy = true) (h : step s = .next t) (hstill : t.status.busy = true) :
    s.wait = t.wait + 1 := by
  obtain ⟨n, hwait, hkept⟩ | hended := step_running hbusy h
  · have hleft : t.wait = n := congrArg Running.wait hkept
    rw [hwait, hleft]
  · rw [hended] at hstill
    cases hstill

end Sys2Proof.Machine

namespace Sys2Proof.Proofs

open Sys2Proof.Machine

/-- Settles O57, by induction over the time left: the next step ends the command, or leaves it with less time. -/
theorem busyEnds : Obligations.BusyEnds := by
  intro s hbusy
  induction hn : s.wait using Nat.strong_induction_on generalizing s with
  | h n ih =>
    subst hn
    obtain ⟨t, hstep⟩ := step_isNext s
    by_cases hstill : t.status.busy = true
    · have htime := wait_of_step_busy hbusy hstep hstill
      obtain ⟨k, u, hk, hrun, hidle⟩ := ih t.wait (by omega) t hstill rfl
      exact ⟨k + 1, u, by omega, (run_succ_of_step Sys2Proof.core hstep k).trans hrun, hidle⟩
    · exact ⟨1, t, by omega, run_succ_of_step Sys2Proof.core hstep 0, Bool.eq_false_of_not_eq_true hstill⟩

end Sys2Proof.Proofs
end

section
/-! SUPPORT. What the two resets leave, and the accesses that a running command lets through or drops (R1500, R1502, R1510, R1511). -/

namespace Sys2Proof.Machine

open Sys2Proof.Safety

/-! ## Reset (R1500, R1502) -/

theorem statusWord_resetStatus : statusWord resetStatus = 0 := by decide

/-- After reset every session is the empty one (R1500, R1503). -/
theorem slot_resetWith (p : Config.Params) (j : Nat) : (resetWith p).slot j = emptySlot := by
  rw [State.slot, List.getD_eq_getElem?_getD]
  exact List.getElem?_getD_replicate_default_eq emptySlot p.nsess j

/-- The reset state meets the rows of R1500 whatever IBUF, the host's queue, the count of drawings and the value last read are: a reset
is that state with some of these kept. -/
theorem isResetBut_resetWith (p : Config.Params) (m : Memory) (q : List HostEvent) (d : Nat) (x : W32) :
    IsResetBut p { resetWith p with ibuf := m, hostQueue := q, draws := d, rdata := x } :=
  ⟨rfl, rfl, statusWord_resetStatus, rfl, rfl, rfl, rfl, rfl, rfl, rfl, rfl, rfl, rfl, rfl, rfl, rfl, List.length_replicate,
    slot_resetWith p, fun _ _ => rfl⟩

theorem isResetBut_hardReset (s : State) : IsResetBut s.params s.hardReset :=
  isResetBut_resetWith s.params [] s.hostQueue s.draws s.rdata

theorem isResetBut_softReset (s : State) : IsResetBut s.params s.softReset :=
  isResetBut_resetWith s.params s.ibuf s.hostQueue s.draws s.rdata

/-- IBUF holds no defined value when it lists no byte (R114). -/
theorem ibufByte_of_ibuf_nil {s : State} (h : s.ibuf = []) (draw k : Nat) :
    ibufByte s draw k = Config.freeByte draw (ibufBase + k) := by
  rw [ibufByte, h]
  rfl

/-- After reset every register past BUFSZ reads 0 (R1500). -/
theorem regValue_resetWith (p : Config.Params) (draw : Nat) {i : Nat} (hi : 3 ≤ i) (hlt : i < 16) :
    regValue (resetWith p) draw i = 0 := by
  interval_cases i
  · rfl
  · exact statusWord_resetStatus
  iterate 9 rfl
  · exact (by decide : (BitVec.ofBool false ++ BitVec.ofBool false).zeroExtend 32 = 0)
  · rfl

/-! ## Writes to CTRL (R112) -/

theorem hostEvent_softReset (s : State) {v : W32} (h : v.getLsbD 0 = true) :
    hostEvent s (.write 0x03C .w32 v) = s.softReset :=
  (hostEvent_write_reg s v (i := 15) rfl (by decide)).trans (if_pos h)

theorem hostEvent_noReset (s : State) {v : W32} (h : v.getLsbD 0 = false) : hostEvent s (.write 0x03C .w32 v) = s :=
  (hostEvent_write_reg s v (i := 15) rfl (by decide)).trans (if_neg (Bool.not_eq_true _ ▸ h))

/-! ## Accesses while a command runs (R1510, R1511) -/

theorem unlessBusy_busy {s : State} (h : s.status.busy = true) (t : State) : unlessBusy s t = s.overrun := by
  rw [unlessBusy, if_pos h]

/-- The writes of CMD and of ARG0 to ARG3 wait for BUSY = 0 (R1510). -/
theorem writeReg_dropped {s : State} (hbusy : s.status.busy = true) (v : W32) {i : Nat} (hi : i ∈ [3, 5, 6, 7, 8]) :
    writeReg s i v = s.overrun := by
  simp only [List.mem_cons, List.not_mem_nil, or_false] at hi
  rcases hi with rfl | rfl | rfl | rfl | rfl <;> exact unlessBusy_busy hbusy _

theorem hostEvent_write_ibuf_busy {s : State} {off : BitVec 14} {w : Width} (v : W32) (hbusy : s.status.busy = true)
    (h : IbufAccess s.params off.toNat w) : hostEvent s (.write off w v) = s.overrun := by
  simp only [hostEvent, hostWrite, targetOf_ibufAccess h]
  exact unlessBusy_busy hbusy _

/-- ID, CAPS, BUFSZ, ARG0 to ARG3 and IRQEN do not look at STATUS (R1511). -/
theorem regValue_withStatus (s : State) (st : Status) (draw : Nat) {i : Nat} (hi : i ∈ [0, 1, 2, 5, 6, 7, 8, 14]) :
    regValue { s with status := st } draw i = regValue s draw i := by
  simp only [List.mem_cons, List.not_mem_nil, or_false] at hi
  rcases hi with rfl | rfl | rfl | rfl | rfl | rfl | rfl | rfl <;> rfl

/-- The low byte of STATUS holds its flags, whatever CODE reads as (R106). -/
theorem toNat_statusWordWith_mod (st : Status) (code : Byte) : (statusWordWith st code).toNat % 2 ^ 8 =
    st.busy.toNat + st.done.toNat * 2 + st.err.toNat * 4 + st.ovr.toNat * 8 + st.aerr.toNat * 16 := by
  have hbusy := st.busy.toNat_le
  have hdone := st.done.toNat_le
  have herr := st.err.toNat_le
  have hovr := st.ovr.toNat_le
  have haerr := st.aerr.toNat_le
  rw [toNat_statusWordWith]
  omega

theorem statusRead_busy {s : State} (h : s.status.busy = true) (draw : Nat) :
    statusRead s draw = statusWordWith s.status ((Config.freeWord draw).setWidth 8) := by
  rw [statusRead, if_pos h]

end Sys2Proof.Machine

namespace Sys2Proof.Proofs

open Sys2Proof.Machine Sys2Proof.Safety

/-- Settles O45: the rows as the reset state has them, and the registers as a host reads them from it. -/
theorem resetState : Obligations.ResetState := by
  refine ⟨fun p => ⟨isResetBut_resetWith p [] [] 0 0, ibufByte_of_ibuf_nil rfl, ?_⟩, fun p hp => ?_, rfl, ?_, ?_⟩
  · rintro s rfl
    exact ⟨isResetBut_hardReset s, ibufByte_of_ibuf_nil rfl⟩
  · obtain ⟨hid, hcaps, hbufsz, -⟩ := registersRead (resetWith p) hp rfl
    refine ⟨hid, hcaps, hbufsz, fun off hoff => ?_⟩
    have hmem : off ∈ (List.range' 3 13).map (4 * ·) := hoff
    obtain ⟨i, hi, rfl⟩ := List.mem_map.1 hmem
    obtain ⟨hlo, hhi⟩ := List.mem_range'_1.1 hi
    exact (readBack_reg _ hhi).trans (regValue_resetWith p _ hlo hhi)
  · exact readBack_reg State.reset (i := 1) (by decide)
  · exact readBack_reg State.reset (i := 2) (by decide)

/-- Settles O46: a 1 written to CTRL.SRST is the soft reset, whether a command runs or not. -/
theorem softReset : Obligations.SoftReset := fun s _ =>
  ⟨fun h => hostEvent_softReset s h ▸ ⟨isResetBut_softReset s, fun _ _ => rfl⟩, hostEvent_noReset s⟩

/-- Settles O52: the writes of CMD, the ARG registers and IBUF wait for BUSY = 0, those of STATUS, IRQEN and CTRL do not. -/
theorem writesWhileBusy : Obligations.WritesWhileBusy := by
  intro s v hbusy
  refine ⟨fun off hoff => ?_, fun off w hacc => hostEvent_write_ibuf_busy v hbusy hacc,
    hostEvent_write_reg s v (i := 4) rfl (by decide), hostEvent_write_reg s v (i := 14) rfl (by decide),
    fun h => hostEvent_softReset s h ▸ isResetBut_softReset s, hostEvent_noReset s⟩
  have hmem : off ∈ [3, 5, 6, 7, 8].map fun i => BitVec.ofNat 14 (4 * i) := hoff
  obtain ⟨i, hi, rfl⟩ := List.mem_map.1 hmem
  have hlt : i < 16 := (by decide : ∀ j ∈ [3, 5, 6, 7, 8], j < 16) i hi
  exact (hostEvent_write_reg s v (toNat_regOffset hlt) hlt).trans (writeReg_dropped hbusy v hi)

/-- Settles O53: the value read does not depend on STATUS, and STATUS itself reads with its flags as they stand. -/
theorem readsWhileBusy : Obligations.ReadsWhileBusy := by
  intro s hbusy
  refine ⟨fun off hoff => ?_, fun off w hp hacc => ?_, ?_⟩
  · have hmem : off ∈ [0, 1, 2, 5, 6, 7, 8, 14].map (4 * ·) := hoff
    obtain ⟨i, hi, rfl⟩ := List.mem_map.1 hmem
    have hlt : i < 16 := (by decide : ∀ j ∈ [0, 1, 2, 5, 6, 7, 8, 14], j < 16) i hi
    rw [readBack_reg _ hlt, readBack_reg _ hlt]
    exact (regValue_withStatus s _ _ hi).symm
  · calc readBack s off w = assembleBytes (ibufByte s s.draws) (off - 0x1000) w := readBack_ibuf hp hacc
      _ = _ := (readBack_ibuf (s := { s with status := { s.status with busy := false } }) hp hacc).symm
  · have hread : readBack s 0x010 .w32 = statusRead s s.draws := readBack_reg s (i := 4) (by decide)
    rw [hread, statusRead_busy hbusy, toNat_statusWordWith_mod, hbusy]
    rfl

end Sys2Proof.Proofs
end
